-- ==== Sys2Proof/Word.lean ====
section
/-!
DEFINITION. The word types of the 8520: bytes, ticks, identifiers, sets of segments, and the
numbers of its ports, slots, ticket records and event kinds.
-/

namespace Sys2Proof

/-- A byte of an image, a message or a frame (R188). -/
abbrev Byte := BitVec 8

/-- A two-byte field (R188). -/
abbrev Half := BitVec 16

/-- A tick of the 32-bit timebase, or a stored tick (R170, R172). -/
abbrev Tick := BitVec 32

/-- A 24-bit frame identifier (00_scope.md, Terms). -/
abbrev Ident := BitVec 24

/-- A set of segments or ports: bit n stands for segment n (R188). -/
abbrev SegSet := BitVec 8

/-- A port, a link or a segment, 0 to 7. -/
abbrev PortNo := Fin 8

/-- A slot of the route table, 0 to 511 (R1). -/
abbrev SlotNo := Fin 512

/-- A ticket record, 0 to 95 (R51). -/
abbrev RecNo := Fin 96

end Sys2Proof
end

