-- ==== Sys2Proof/Config.lean ====
section
/-!
DEFINITION. What the part fixes: sizes, framing bytes, defaults and the IDENTIFY data. The spec
leaves no value open, so there is no free value here.
-/

namespace Sys2Proof.Config

/-- The inbound queue holds at most 4 messages (R127). -/
def inboundRoom : Nat := 4

/-- The outbound queue holds at most 8 answers (R26, R129). -/
def answerRoom : Nat := 8

/-- A transaction holds at most 16 ops (R93). -/
def maxOps : Nat := 16

/-- The largest quota of a port (R120). -/
def maxQuota : Nat := 96

/-- The largest parameter length of a command frame (R142). -/
def maxParams : Nat := 60

/-- The largest number of content bytes a receiver takes as a frame (R123). -/
def maxContent : Nat := 9

/-- LIST_RETIRED names at most 8 slots (R88). -/
def maxListed : Nat := 8

/-- The delimiter of a link frame (R123). -/
def delimiter : Byte := 0xB5#8

/-- The escape byte of a link frame (R123). -/
def escape : Byte := 0xB4#8

/-- What an escaped content byte is XORed with (R123). -/
def escapeMask : Byte := 0x40#8

/-- The largest frame length a lookup or a length window may give (R31, R101). -/
def maxLength : Nat := 2047

/-- The largest precedence (R6, R101). -/
def maxPrecedence : Nat := 4095

/-- The tick period after hard reset, in µs (R163, R171). -/
def defaultTickPeriod : BitVec 16 := 100#16

/-- The offer limit after hard reset (R74, R163). -/
def defaultOfferLimit : BitVec 8 := 16#8

/-- The 16-bit value for "no handle" and "no ticket" (00_scope.md, R4, R52). -/
def noName : Half := 0xFFFF#16

/-- The 10 data bytes of IDENTIFY: vendor 0x0F3A, part 0x8520, revision 0x01, 512 slots,
96 tickets, 8 query ports, 16 staged ops (R152). -/
def identifyData : List Byte :=
  [0x0F#8, 0x3A#8, 0x85#8, 0x20#8, 0x01#8, 0x02#8, 0x00#8, 96#8, 8#8, 16#8]

end Sys2Proof.Config
end

