-- ==== Sys2Proof/Syntax.lean ====
section
/-!
DEFINITION. The commands of the 8520: one constructor for each row of spec/opcode_table.json,
with the operands the row's rule gives it.
-/

namespace Sys2Proof

/-- A complete command frame less its command code and length byte: the sequence, the parameter
bytes and the check byte as received on MOSI (R142). The code is the command's own, and the
length byte is the number of parameter bytes. -/
structure HostFrame where
  seq    : Byte
  params : List Byte
  check  : Byte
deriving DecidableEq, Repr

/-- The content of a link frame as a receiver holds it: its unescaped bytes up to the ninth, and whether
there were more, which counts the frame as too long (R123). -/
structure LinkContent where
  bytes   : List Byte
  tooLong : Bool
deriving DecidableEq, Repr

/-- An empty frame (R123). -/
def LinkContent.empty : LinkContent := ⟨[], false⟩

/-- The 32 host commands of R194. -/
inductive HostCmd where
  | nop | identify | tableSummary
  | start | stop | resume | keepalive | warmRestart
  | setTimebase | setSupervision | setOfferLimit | setEventLevels
  | portOpen | portClose | readPort
  | begin | stageInsert | stageRemove | stageAmend | stageRenew | commit | discard | commitResult
  | readEntry | walkFirst | walkNext | listRetired | collect | probe | readTicket
  | readEvents | clearEvents
deriving DecidableEq, Repr

/-- The events of the opcode table. Each is one whole step (95_what_each_step_holds.md). -/
inductive Instr where
  /-- POWER_ON: power is applied, with RESET# low or high at that moment (R163, R178). -/
  | powerOn (resetLow : Bool)
  /-- POWER_ON_HOLD_END: both supplies have reached their levels (R163). -/
  | powerOnHoldEnd
  /-- HARD_RESET: RESET# falls while the device is powered (R163). -/
  | hardReset
  /-- RESET_RELEASE: RESET# rises (R163). -/
  | resetRelease
  /-- MEMORY_CLEAR_COMPLETE: the memory clear completes (R164). -/
  | memoryClearComplete
  /-- TIMEBASE_TICK: a tick period ends (R170). -/
  | timebaseTick
  /-- DEADLINE_EXPIRY: the lifetime unit claims the expiry of the entry in a slot (R77, R78). -/
  | deadlineExpiry (slot : SlotNo)
  /-- DUE_EXPIRY: the ticket at the front of the release list falls due (R59, R60). -/
  | dueExpiry
  /-- OFFER_TIMEOUT: the offer deadline of a ticket is reached (R66). -/
  | offerTimeout (record : RecNo)
  /-- WINDOW_OPENS: the window-open tick of the entry in a slot is reached (R12). -/
  | windowOpens (slot : SlotNo)
  /-- SUPERVISION_EXPIRY: the supervision expiry tick is reached (R176). -/
  | supervisionExpiry
  /-- CUTOVER: the build completes (R108). -/
  | cutover
  /-- FRAME_ARRIVAL: the closing delimiter of a frame with this content is received on a port (R123,
  R126). -/
  | frameArrival (port : PortNo) (content : LinkContent)
  /-- BAD_ESCAPE: this byte follows the escape byte on a port's link (R125). -/
  | badEscape (port : PortNo) (byte : Byte)
  /-- LOOKUP_EVENT: the arbiter grants, and the granted LOOKUP is evaluated and answered (R29). -/
  | lookupEvent
  /-- ACK: the release unit takes the ACK at a port's inbound head (R62). -/
  | ack (port : PortNo)
  /-- CANCEL: the release unit takes the CANCEL at a port's inbound head (R64). -/
  | cancel (port : PortNo)
  /-- PING: a port takes the PING at its inbound head (R131). -/
  | ping (port : PortNo)
  /-- LEAVING_THE_LINK: the head outbound message of a port has been sent (R133). -/
  | leavingTheLink (port : PortNo)
  /-- SPI_TRANSACTION_OPEN: CS# falls (R141). -/
  | spiTransactionOpen
  /-- FRAME_ERROR: CS# rises after these MOSI bytes, which are no complete frame (R145). -/
  | frameError (mosi : List Byte)
  /-- BAD_COMMAND: CS# rises after a complete frame whose code is no command's (R145). -/
  | badCommand (code : Byte) (f : HostFrame)
  | nop (f : HostFrame)
  | identify (f : HostFrame)
  | tableSummary (f : HostFrame)
  | start (f : HostFrame)
  | stop (f : HostFrame)
  | resume (f : HostFrame)
  | keepalive (f : HostFrame)
  | warmRestart (f : HostFrame)
  | setTimebase (f : HostFrame)
  | setSupervision (f : HostFrame)
  | setOfferLimit (f : HostFrame)
  | setEventLevels (f : HostFrame)
  | readEvents (f : HostFrame)
  | clearEvents (f : HostFrame)
  | portOpen (f : HostFrame)
  | portClose (f : HostFrame)
  | readPort (f : HostFrame)
  | begin (f : HostFrame)
  | stageInsert (f : HostFrame)
  | stageRemove (f : HostFrame)
  | stageAmend (f : HostFrame)
  | stageRenew (f : HostFrame)
  | commit (f : HostFrame)
  | discard (f : HostFrame)
  | commitResult (f : HostFrame)
  | readEntry (f : HostFrame)
  | walkFirst (f : HostFrame)
  | walkNext (f : HostFrame)
  | listRetired (f : HostFrame)
  | collect (f : HostFrame)
  | probe (f : HostFrame)
  | readTicket (f : HostFrame)
  /-- HUNT_DELIMITER: a delimiter is received on a port whose receiver is in HUNT (R123). -/
  | huntDelimiter (port : PortNo)
deriving DecidableEq, Repr

end Sys2Proof
end

