-- ==== Sys2Proof/Machine/State.lean ====
section
/-!
DEFINITION. The state of the 8520, block by block (00_scope.md, Functional blocks), as plain data,
and the state right after a hard reset is released.
-/

namespace Sys2Proof.Machine

/-! ### The route table (chapter 1) -/

/-- The kind criterion of an entry (R6). -/
inductive KindCriterion where
  | any | data | poll
deriving DecidableEq, Repr

/-- What a matching frame is to do (R6). -/
inductive Disposition where
  | forward | discard
deriving DecidableEq, Repr

/-- What a lookup that finds the window shut receives (R6). -/
inductive PaceMode where
  | drop | defer
deriving DecidableEq, Repr

/-- How an entry's deadline is kept (R6, R13). -/
inductive LifetimeKind where
  | permanent | idle | fixed
deriving DecidableEq, Repr

/-- The four flags of an entry (R7). -/
structure EntryFlags where
  single    : Bool
  essential : Bool
  reflect   : Bool
  quiet     : Bool
deriving DecidableEq, Repr

/-- The action fields of a definition, which an AMEND replaces as a whole (R9). -/
structure Action where
  disposition   : Disposition
  destinations  : SegSet
  rewrite       : Option Ident
  label         : Half
  lengthMin     : Half
  lengthMax     : Half
  paceInterval  : Half
  paceMode      : PaceMode
  lifetimeKind  : LifetimeKind
  lifetimeValue : BitVec 24
  flags         : EntryFlags
deriving DecidableEq, Repr

/-- The definition of an entry: what the host gives it (R6). -/
structure Definition where
  precedence : Half
  identValue : Ident
  identMask  : Ident
  kind       : KindCriterion
  sources    : SegSet
  action     : Action
deriving DecidableEq, Repr

/-- The order key of an entry (R15). -/
structure OrderKey where
  precedence : Half
  serial     : BitVec 32
deriving DecidableEq, Repr

/-- The handle of an entry: its slot and the slot's era (R4). -/
structure Handle where
  era  : BitVec 6
  slot : SlotNo
deriving DecidableEq, Repr

/-- The id of a ticket: its record and the record's serial (R52). -/
structure TicketId where
  serial : BitVec 4
  number : RecNo
deriving DecidableEq, Repr

/-- The window state of a LIVE entry (R12). -/
inductive WindowState where
  | opened | shut
deriving DecidableEq, Repr

/-- The cause with which an entry left LIVE (R10, R82). -/
inductive RetireCause where
  | removed | expired | spent
deriving DecidableEq, Repr

/-- What an entry holds in every state of its slot but FREE (R10). -/
structure Entry where
  definition : Definition
  serial     : BitVec 32
  matchCount : BitVec 16
  windowOpen : Tick
deriving DecidableEq, Repr

/-- What an entry holds while it is LIVE (R10). -/
structure LiveEntry where
  entry    : Entry
  window   : WindowState
  deadline : Option Tick
  ticket   : Option TicketId
deriving DecidableEq, Repr

/-- A slot's state with the fields that hold values in it (R1, R10). -/
inductive SlotBody where
  | free
  | live (l : LiveEntry)
  | retiring (e : Entry) (cause : RetireCause) (ticket : TicketId)
  | retired (e : Entry) (cause : RetireCause)
deriving DecidableEq, Repr

/-- A slot of the route table: its era and its state (R1, R3). -/
structure Slot where
  era  : BitVec 6
  body : SlotBody
deriving DecidableEq, Repr

/-- What the route table owns (chapter 1). -/
structure RouteTable where
  slots      : Vector Slot 512
  generation : BitVec 16
  nextSerial : BitVec 32
  exhausted  : Bool
deriving DecidableEq, Repr

/-- The table after hard reset (R24). -/
def RouteTable.reset : RouteTable where
  slots      := Vector.replicate 512 ⟨0#6, .free⟩
  generation := 0#16
  nextSerial := 0#32
  exhausted  := false

/-! ### The release unit (chapter 3) -/

/-- What a PENDING or OFFERED ticket holds (R51). -/
structure Held where
  handle : Handle
  owner  : PortNo
  tag    : Byte
  ident  : Ident
  due    : Tick
deriving DecidableEq, Repr

/-- A record's state with the fields that hold values in it. An OFFERED ticket is sent exactly when
it has an offer deadline (R51). -/
inductive TicketBody where
  | free
  | pending (h : Held)
  | offered (h : Held) (cancelRequested : Bool) (offerDeadline : Option Tick)
deriving DecidableEq, Repr

/-- A ticket record (R51). -/
structure TicketRecord where
  serial : BitVec 4
  body   : TicketBody
deriving DecidableEq, Repr

/-- What the release unit owns (R51, R53, R54). -/
structure ReleaseUnit where
  records     : Vector TicketRecord 96
  freeOrder   : List RecNo
  releaseList : List RecNo
deriving DecidableEq, Repr

/-- The tickets after hard reset (R74). -/
def ReleaseUnit.reset : ReleaseUnit where
  records     := Vector.replicate 96 ⟨0#4, .free⟩
  freeOrder   := List.finRange 96
  releaseList := []

/-! ### The edit unit (chapter 5) -/

/-- The transaction state (R93). -/
inductive TxnState where
  | closed | opened | building
deriving DecidableEq, Repr

/-- A staged op, with its parameters as received (R93, R97). -/
inductive Op where
  | insert (image : List Byte)
  | remove (handle : Half)
  | amend (handle : Half) (image : List Byte)
  | renew (handle : Half)
deriving DecidableEq, Repr

/-- The status of the commit result record (R116). -/
inductive CommitStatus where
  | noCommit | building | done | rejected | failed
deriving DecidableEq, Repr

/-- The reason in a commit result record or a REJECTED response (R116, R194). -/
inductive CommitReason where
  | noReason | empty | field | duplicate | noSlots | notLive | doubleTarget | serialExhausted
  | targetRetired
deriving DecidableEq, Repr

/-- The commit result record (R116). -/
structure CommitRecord where
  status     : CommitStatus
  opIndex    : Nat
  reason     : CommitReason
  fieldNo    : Nat
  generation : BitVec 16
  handles    : List Handle
deriving DecidableEq, Repr

/-- The record with status NONE (R116). -/
def CommitRecord.reset : CommitRecord := ⟨.noCommit, 0, .noReason, 0, 0#16, []⟩

/-- What the edit unit owns (R93). -/
structure EditUnit where
  txn    : TxnState
  ops    : List Op
  result : CommitRecord
deriving DecidableEq, Repr

/-- The edit unit after hard reset and after warm restart (R118). -/
def EditUnit.reset : EditUnit := ⟨.closed, [], .reset⟩

/-! ### The device state (chapter 8) -/

/-- The device state (R162). -/
inductive DeviceState where
  | init | standby | active | fallback
deriving DecidableEq, Repr

/-! ### The query ports (chapter 6) -/

/-- A well-formed inbound message as it arrived (R119, R192). -/
inductive InMsg where
  | lookup (tag : Byte) (ident : Ident) (kind : Byte) (length : Half)
  | ack (id : Half)
  | cancel (id : Half)
  | ping (tag : Byte)
deriving DecidableEq, Repr

/-- The reasons of DROP (R48, R192). -/
inductive DropReason where
  | rule | length | pace | paceHeld | noTicket | noDestination
deriving DecidableEq, Repr

/-- The reasons of REFUSE (R48, R192). -/
inductive RefuseReason where
  | notActive | malformed
deriving DecidableEq, Repr

/-- The reasons of WITHDRAWN (R68, R69, R192). -/
inductive WithdrawReason where
  | removed | expired | amended | fallback | stopped | noDestination
deriving DecidableEq, Repr

/-- The causes of STRAY (R63, R192). -/
inductive StrayCause where
  | unknown | notOwner | notSent
deriving DecidableEq, Repr

/-- The kind and body of an outbound message (R192). -/
inductive OutBody where
  | route (tag : Byte) (label : Half) (destinations : SegSet) (identOut : Ident) (generation : Byte)
  | defer (tag : Byte) (ticket : TicketId) (due : Tick) (generation : Byte)
  | drop (tag : Byte) (reason : DropReason) (label : Half)
  | noMatch (tag : Byte)
  | refuse (tag : Byte) (reason : RefuseReason)
  | release (ticket : TicketId) (tag : Byte) (label : Half) (destinations : SegSet) (identOut : Ident)
  | withdrawn (ticket : TicketId) (tag : Byte) (reason : WithdrawReason)
  | superseded (ticket : TicketId) (tag : Byte)
  | cancelled (id : Half)
  | tooLate (id : Half)
  | stray (id : Half) (cause : StrayCause)
  | pong (tag : Byte) (device : DeviceState) (generation : BitVec 16) (freeTickets : Nat)
  | portUp (device : DeviceState) (generation : BitVec 16)
deriving DecidableEq, Repr

/-- An outbound message with its OVERRUN flag (R119, R128). -/
structure OutMsg where
  overrun : Bool
  body    : OutBody
deriving DecidableEq, Repr

/-- Whether a port is open (R119). -/
inductive PortState where
  | closed | opened
deriving DecidableEq, Repr

/-- The receiver of a port (R119, R123). -/
inductive Receiver where
  | hunt | frame
deriving DecidableEq, Repr

/-- How the last frame on pin QLn_TX ended; idle fill follows it. `quiet`: there was none.
`sent`: these line bytes went out whole (R133). `aborted`: a flush ended it with the abort sequence
(R135). `cutOff`: a hard reset ended it with neither (R139). The model's own view of the pin. -/
inductive LineEnd where
  | quiet
  | sent (bytes : List Byte)
  | aborted
  | cutOff
deriving DecidableEq, Repr

/-- What a query port owns (R119). -/
structure Port where
  state    : PortState
  quota    : Nat
  inbound  : List InMsg
  outbound : List OutMsg
  overrun  : Bool
  receiver : Receiver
  line     : LineEnd
deriving DecidableEq, Repr

/-- A port after hard reset (R139); the spec gives the receiver of a CLOSED port no value (log 19). -/
def Port.reset : Port := ⟨.closed, 0, [], [], false, .hunt, .quiet⟩

/-! ### The host port (chapter 7) -/

/-- The result codes (R148). -/
inductive ResultCode where
  | ok | accepted | rejected | notReady | busy | badCheck | badCommand | badParam | wrongState
  | noTransaction | alreadyOpen | stageFull | notFound | endOfList | frameError
deriving DecidableEq, Repr

/-- A response: the sequence echoed, the result and the data (R144). -/
structure Response where
  seq    : Byte
  result : ResultCode
  data   : List Byte
deriving DecidableEq, Repr

/-- Where the SPI port stands: `idle` with CS# high, `selected` in a transaction, `ignored` with CS#
low but the transaction lost to a reset or begun during one (R141, R150). -/
inductive SpiPhase where
  | idle | selected | ignored
deriving DecidableEq, Repr

/-- What the host port owns: the SPI phase, the bytes MISO shifts out in the transaction in progress
(none while it is high-impedance), the response buffer and the walk cursor (R143, R144, R155). -/
structure HostPort where
  phase    : SpiPhase
  miso     : List Byte
  response : Response
  cursor   : Option OrderKey
deriving DecidableEq, Repr

/-- The host port after hard reset (R144, R155). -/
def HostPort.reset : HostPort := ⟨.idle, [], ⟨0#8, .notReady, []⟩, none⟩

/-! ### The control unit (chapter 8) -/

/-- The reset cause (R178). -/
inductive ResetCause where
  | powerOn | pin | warm
deriving DecidableEq, Repr

/-- What the control unit owns (R163, R173), with the supplies and RESET# as it sees them. The
supervision timer is RUNNING exactly when it has an expiry tick. -/
structure ControlUnit where
  device         : DeviceState
  now            : Tick
  tickPeriod     : BitVec 16
  tickInProgress : BitVec 16
  window         : BitVec 16
  timer          : Option Tick
  offerLimit     : BitVec 8
  cause          : ResetCause
  powerHold      : Bool
  resetLow       : Bool
deriving DecidableEq, Repr

/-- The control unit at the release of a power-on reset (R163). -/
def ControlUnit.reset : ControlUnit where
  device         := .init
  now            := 0#32
  tickPeriod     := Config.defaultTickPeriod
  tickInProgress := Config.defaultTickPeriod
  window         := 0#16
  timer          := none
  offerLimit     := Config.defaultOfferLimit
  cause          := .powerOn
  powerHold      := false
  resetLow       := false

/-! ### The event unit (chapter 9) -/

/-- The event kinds in the order of their numbers (R179). -/
inductive EventKind where
  | initDone | commitDone | commitFailed | entryExpired | singleSpent | ticketRefused | offerTimeout
  | portOverrun | linkError | fallbackEntered | hostFrameError
deriving DecidableEq, Repr

/-- The level of an event kind (R179). -/
inductive EventLevel where
  | silent | note | alert
deriving DecidableEq, Repr

/-- What the event unit owns (R179): bit k of `flags` is the pending flag of kind k. -/
structure EventUnit where
  flags          : BitVec 11
  levels         : Vector EventLevel 11
  overrunPorts   : SegSet
  linkErrorPorts : SegSet
deriving DecidableEq, Repr

/-- The event unit after hard reset, with the default levels (R179, R185). -/
def EventUnit.reset : EventUnit where
  flags          := 0#11
  levels         := #v[.note, .note, .alert, .silent, .silent, .note, .note, .alert, .alert, .alert, .note]
  overrunPorts   := 0#8
  linkErrorPorts := 0#8

/-! ### The device -/

/-- The state of the device, with the queue of commands that wait. -/
structure State where
  rtb     : RouteTable
  pointer : PortNo
  rlu     : ReleaseUnit
  edu     : EditUnit
  qp      : Vector Port 8
  hpt     : HostPort
  ctu     : ControlUnit
  evu     : EventUnit
  pending : List Instr
deriving DecidableEq, Repr

/-- The device at the end of power-on, the memory clear beginning (R24, R28, R74, R118, R139, R144,
R155, R163, R185), with no command waiting. -/
def State.reset : State where
  rtb     := .reset
  pointer := 0
  rlu     := .reset
  edu     := .reset
  qp      := Vector.replicate 8 .reset
  hpt     := .reset
  ctu     := .reset
  evu     := .reset
  pending := []

/-- Why the device would stop. The spec gives no event that stops it (errors are results, answers
or events: R48, R63, R148, R180), so there is no fault: nothing raises one. -/
inductive Fault where
deriving DecidableEq, Repr

/-- Why a command is refused. -/
inductive Refusal where
  /-- The command has no meaning in this model yet. Raised by an arm of exec; safe: the model stops
  where the device goes on. No arm raises it. -/
  | notModelled (mnemonic : String)
deriving DecidableEq, Repr

end Sys2Proof.Machine
end

