-- ==== Sys2Proof/Machine/Wire.lean ====
section
/-!
DEFINITION. Bytes on the wires: byte order (R188), the check byte (R124, R147), and the framing
and escaping of the query links (R123).
-/

namespace Sys2Proof.Machine

/-- A two-byte field, most significant byte first (R188). -/
def be16 (v : Half) : List Byte := [v.extractLsb' 8 8, v.extractLsb' 0 8]

/-- A three-byte field, most significant byte first (R188). -/
def be24 (v : Ident) : List Byte := [v.extractLsb' 16 8, v.extractLsb' 8 8, v.extractLsb' 0 8]

/-- A four-byte field, most significant byte first (R188). -/
def be32 (v : Tick) : List Byte :=
  [v.extractLsb' 24 8, v.extractLsb' 16 8, v.extractLsb' 8 8, v.extractLsb' 0 8]

/-- A count in one byte. -/
def countByte (n : Nat) : Byte := BitVec.ofNat 8 n

/-- The byte at a position of a parameter block or an image (0 beyond its end). -/
def byteAt (bs : List Byte) (i : Nat) : Byte := bs.getD i 0#8

/-- The two-byte field that starts at a position (R188). -/
def halfAt (bs : List Byte) (i : Nat) : Half := byteAt bs i ++ byteAt bs (i + 1)

/-- The three-byte field that starts at a position (R188). -/
def identAt (bs : List Byte) (i : Nat) : Ident := byteAt bs i ++ byteAt bs (i + 1) ++ byteAt bs (i + 2)

/-- The bits of a byte as SPI carries them, most significant first (R141). -/
def spiBits (b : Byte) : List Bool :=
  [b.getLsbD 7, b.getLsbD 6, b.getLsbD 5, b.getLsbD 4, b.getLsbD 3, b.getLsbD 2, b.getLsbD 1, b.getLsbD 0]

/-- The bytes of the bits received in an SPI transaction, most significant bit first; the bits of a last
partial byte are discarded (R141). -/
def spiBytes : List Bool → List Byte
  | b7 :: b6 :: b5 :: b4 :: b3 :: b2 :: b1 :: b0 :: rest =>
    BitVec.ofBoolListBE [b7, b6, b5, b4, b3, b2, b1, b0] :: spiBytes rest
  | _ => []

/-- One step of the division by x^8 + x^2 + x + 1, most significant bit first (R124). -/
def crcShift (r : Byte) : Byte := if r.msb then (r <<< 1) ^^^ 0x07#8 else r <<< 1

/-- The division over one byte (R124). -/
def crcByte (r b : Byte) : Byte :=
  crcShift (crcShift (crcShift (crcShift (crcShift (crcShift (crcShift (crcShift (r ^^^ b))))))))

/-- The CRC-8 of a run of bytes, the register starting at 0x00 (R124, R147). -/
def crc8 (bs : List Byte) : Byte := bs.foldl crcByte 0#8

/-- Bytes followed by their check byte (R124, R147). -/
def withCheck (bs : List Byte) : List Byte := bs ++ [crc8 bs]

/-- One content byte as it is sent inside a frame: 0xB5 and 0xB4 are escaped (R123). -/
def escapeByte (b : Byte) : List Byte :=
  if b = Config.delimiter ∨ b = Config.escape then [Config.escape, b ^^^ Config.escapeMask] else [b]

/-- A run of content bytes as it is sent inside a frame (R123). -/
def escapeAll (bs : List Byte) : List Byte := bs.flatMap escapeByte

/-- A frame on the line: the escaped content between two delimiters (R123). -/
def lineFrame (content : List Byte) : List Byte :=
  Config.delimiter :: escapeAll content ++ [Config.delimiter]

/-- Frames one after another on the line: one delimiter closes a frame and opens the next, and no
frame leaves a delimiter alone (R123, R133). -/
def lineFrames : List (List Byte) → List Byte
  | [] => [Config.delimiter]
  | content :: rest => Config.delimiter :: escapeAll content ++ lineFrames rest

/-- The abort sequence: the escape byte followed directly by a delimiter (R123). -/
def abortSequence : List Byte := [Config.escape, Config.delimiter]

/-- The bytes of a complete command frame: sequence, code, parameter length, parameters and
check byte (R142, R194). -/
def frameBytes (code : Byte) (f : HostFrame) : List Byte :=
  [f.seq, code, countByte f.params.length] ++ f.params ++ [f.check]

/-- A frame passes when the division over all its bytes leaves 0 (R147). -/
def frameChecks (code : Byte) (f : HostFrame) : Bool := crc8 (frameBytes code f) == 0#8

/-- MOSI bytes hold a complete, well-formed command frame: at least 3 bytes, a parameter length of
at most 60, and as many bytes as that length needs (R142, R145 test 1). -/
def frameComplete (mosi : List Byte) : Bool :=
  3 ≤ mosi.length && (byteAt mosi 2).toNat ≤ Config.maxParams
    && (byteAt mosi 2).toNat + 4 ≤ mosi.length

end Sys2Proof.Machine
end

