-- ==== Sys2Proof/Machine/Codes.lean ====
section
/-!
DEFINITION. The codes of chapter 10 (R188, R192, R194), the 16-bit forms of handles and ticket ids
(R4, R52), and the bytes of link messages and host responses.
-/

namespace Sys2Proof.Machine

/-! ### Codes of states, kinds and causes (R188) -/

/-- Device state codes (R188). -/
def DeviceState.code : DeviceState → Byte
  | .init => 0#8
  | .standby => 1#8
  | .active => 2#8
  | .fallback => 3#8

/-- Kind criterion codes (R188). -/
def KindCriterion.code : KindCriterion → Byte
  | .any => 0#8
  | .data => 1#8
  | .poll => 2#8

/-- The kind criterion of a code byte; COMMIT validation lets no other code reach the table. -/
def KindCriterion.ofCode (b : Byte) : KindCriterion :=
  if b = 1#8 then .data else if b = 2#8 then .poll else .any

/-- Disposition codes (R189). -/
def Disposition.code : Disposition → Byte
  | .forward => 0#8
  | .discard => 1#8

/-- The disposition of a code byte; COMMIT validation lets no other code reach the table. -/
def Disposition.ofCode (b : Byte) : Disposition := if b = 1#8 then .discard else .forward

/-- Pace mode codes (R189). -/
def PaceMode.code : PaceMode → Byte
  | .drop => 0#8
  | .defer => 1#8

/-- The pace mode of a code byte; COMMIT validation lets no other code reach the table. -/
def PaceMode.ofCode (b : Byte) : PaceMode := if b = 1#8 then .defer else .drop

/-- Lifetime kind codes (R189). -/
def LifetimeKind.code : LifetimeKind → Byte
  | .permanent => 0#8
  | .idle => 1#8
  | .fixed => 2#8

/-- The lifetime kind of a code byte; COMMIT validation lets no other code reach the table. -/
def LifetimeKind.ofCode (b : Byte) : LifetimeKind :=
  if b = 1#8 then .idle else if b = 2#8 then .fixed else .permanent

/-- The flags byte of an image: bits 0 to 3 are SINGLE, ESSENTIAL, REFLECT, QUIET (R189). -/
def EntryFlags.code (f : EntryFlags) : Byte :=
  (if f.single then 1#8 else 0#8) ||| (if f.essential then 2#8 else 0#8)
    ||| (if f.reflect then 4#8 else 0#8) ||| (if f.quiet then 8#8 else 0#8)

/-- The flags of a flags byte (R189). -/
def EntryFlags.ofCode (b : Byte) : EntryFlags :=
  ⟨b.getLsbD 0, b.getLsbD 1, b.getLsbD 2, b.getLsbD 3⟩

/-- Slot state codes (R188). -/
def SlotBody.code : SlotBody → Byte
  | .free => 0#8
  | .live _ => 1#8
  | .retiring _ _ _ => 2#8
  | .retired _ _ => 3#8

/-- Retire cause codes; 0 stands for none (R188). -/
def RetireCause.code : RetireCause → Byte
  | .removed => 1#8
  | .expired => 2#8
  | .spent => 3#8

/-- Ticket state codes (R188). -/
def TicketBody.code : TicketBody → Byte
  | .free => 0#8
  | .pending _ => 1#8
  | .offered _ _ _ => 2#8

/-- Port state codes (R188). -/
def PortState.code : PortState → Byte
  | .closed => 0#8
  | .opened => 1#8

/-- Event level codes (R188). -/
def EventLevel.code : EventLevel → Byte
  | .silent => 0#8
  | .note => 1#8
  | .alert => 2#8

/-- The event level of a code, where there is one (R182). -/
def EventLevel.ofCode (b : Byte) : Option EventLevel :=
  if b = 0#8 then some .silent else if b = 1#8 then some .note
  else if b = 2#8 then some .alert else none

/-- Reset cause codes (R188). -/
def ResetCause.code : ResetCause → Byte
  | .powerOn => 0#8
  | .pin => 1#8
  | .warm => 2#8

/-- Transaction state codes in the status word (R93, R149). -/
def TxnState.code : TxnState → Nat
  | .closed => 0
  | .opened => 1
  | .building => 2

/-- Result codes (R194). -/
def ResultCode.code : ResultCode → Byte
  | .ok => 0x00#8
  | .accepted => 0x01#8
  | .rejected => 0x02#8
  | .notReady => 0x10#8
  | .busy => 0x11#8
  | .badCheck => 0x12#8
  | .badCommand => 0x13#8
  | .badParam => 0x14#8
  | .wrongState => 0x15#8
  | .noTransaction => 0x16#8
  | .alreadyOpen => 0x17#8
  | .stageFull => 0x18#8
  | .notFound => 0x19#8
  | .endOfList => 0x1A#8
  | .frameError => 0x1B#8

/-- Commit status codes (R194). -/
def CommitStatus.code : CommitStatus → Byte
  | .noCommit => 0#8
  | .building => 1#8
  | .done => 2#8
  | .rejected => 3#8
  | .failed => 4#8

/-- Commit reason codes (R194). -/
def CommitReason.code : CommitReason → Byte
  | .noReason => 0#8
  | .empty => 1#8
  | .field => 2#8
  | .duplicate => 3#8
  | .noSlots => 4#8
  | .notLive => 5#8
  | .doubleTarget => 6#8
  | .serialExhausted => 7#8
  | .targetRetired => 8#8

/-- DROP reason codes (R192). -/
def DropReason.code : DropReason → Byte
  | .rule => 1#8
  | .length => 2#8
  | .pace => 3#8
  | .paceHeld => 4#8
  | .noTicket => 5#8
  | .noDestination => 6#8

/-- REFUSE reason codes (R192). -/
def RefuseReason.code : RefuseReason → Byte
  | .notActive => 1#8
  | .malformed => 2#8

/-- WITHDRAWN reason codes (R192). -/
def WithdrawReason.code : WithdrawReason → Byte
  | .removed => 1#8
  | .expired => 2#8
  | .amended => 3#8
  | .fallback => 4#8
  | .stopped => 5#8
  | .noDestination => 6#8

/-- STRAY cause codes (R192). -/
def StrayCause.code : StrayCause → Byte
  | .unknown => 1#8
  | .notOwner => 2#8
  | .notSent => 3#8

/-! ### Handles and ticket ids -/

/-- A handle as 16 bits: era × 512 + slot number (R4). -/
def Handle.word (h : Handle) : Half := BitVec.ofNat 16 (h.era.toNat * 512 + h.slot.val)

/-- The slot a 16-bit handle gives: bits 8 to 0 (R4). -/
def handleSlot (w : Half) : SlotNo := Fin.ofNat 512 w.toNat

/-- The era a 16-bit handle gives: bits 14 to 9 (R4). -/
def handleEra (w : Half) : BitVec 6 := w.extractLsb' 9 6

/-- A ticket id as 16 bits: serial × 256 + record number (R52). -/
def TicketId.word (t : TicketId) : Half := BitVec.ofNat 16 (t.serial.toNat * 256 + t.number.val)

/-- The record an id gives, where bits 15 to 12 and bit 7 are 0 and bits 6 to 0 are 95 or less
(R52). -/
def ticketNumber (w : Half) : Option RecNo :=
  if w &&& 0xF080#16 = 0#16 then
    (if h : w.toNat % 128 < 96 then some ⟨w.toNat % 128, h⟩ else none)
  else none

/-- The serial an id gives: bits 11 to 8 (R52). -/
def ticketSerial (w : Half) : BitVec 4 := w.extractLsb' 8 4

/-! ### Link messages (R192) -/

/-- The kind code of an outbound message (R192). -/
def OutBody.code : OutBody → Byte
  | .route _ _ _ _ _ => 0x20#8
  | .defer _ _ _ _ => 0x21#8
  | .drop _ _ _ => 0x22#8
  | .noMatch _ => 0x23#8
  | .refuse _ _ => 0x24#8
  | .release _ _ _ _ _ => 0x25#8
  | .withdrawn _ _ _ => 0x26#8
  | .superseded _ _ => 0x27#8
  | .cancelled _ => 0x28#8
  | .tooLate _ => 0x29#8
  | .stray _ _ => 0x2A#8
  | .pong _ _ _ _ => 0x2B#8
  | .portUp _ _ => 0x2C#8

/-- The body bytes of an outbound message (R192). -/
def OutBody.bytes : OutBody → List Byte
  | .route tag label dest ident gen => [tag] ++ be16 label ++ [dest] ++ be24 ident ++ [gen]
  | .defer tag ticket due gen => [tag] ++ be16 ticket.word ++ be32 due ++ [gen]
  | .drop tag reason label => [tag, reason.code] ++ be16 label
  | .noMatch tag => [tag]
  | .refuse tag reason => [tag, reason.code]
  | .release ticket tag label dest ident => be16 ticket.word ++ [tag] ++ be16 label ++ [dest] ++ be24 ident
  | .withdrawn ticket tag reason => be16 ticket.word ++ [tag, reason.code]
  | .superseded ticket tag => be16 ticket.word ++ [tag]
  | .cancelled id => be16 id
  | .tooLate id => be16 id
  | .stray id cause => be16 id ++ [cause.code]
  | .pong tag device gen free => [tag, device.code] ++ be16 gen ++ [countByte free]
  | .portUp device gen => [device.code] ++ be16 gen

/-- The content bytes of an outbound message: kind code, flags byte with the OVERRUN flag in bit 0,
body and check byte (R192). -/
def OutMsg.content (m : OutMsg) : List Byte :=
  withCheck ([m.body.code, if m.overrun then 1#8 else 0#8] ++ m.body.bytes)

/-- A notice is a RELEASE, WITHDRAWN or SUPERSEDED; every other outbound message is an answer
(R132). -/
def OutBody.isNotice : OutBody → Bool
  | .release _ _ _ _ _ => true
  | .withdrawn _ _ _ => true
  | .superseded _ _ => true
  | _ => false

/-- A notice that counts towards the load of its port: WITHDRAWN or SUPERSEDED (R55). -/
def OutBody.isCounted : OutBody → Bool
  | .withdrawn _ _ _ => true
  | .superseded _ _ => true
  | _ => false

/-- An inbound message from its content bytes, where the arrival checks 1 to 5 of R126 pass: at
least 2 bytes, at most 9, a good check byte, an inbound kind code, and the length of its kind
(R192, R193). -/
def parseInbound (content : List Byte) : Option InMsg :=
  if 2 ≤ content.length ∧ content.length ≤ Config.maxContent ∧ crc8 content = 0#8 then
    (match content with
      | [k, tag, i2, i1, i0, kind, l1, l0, _] =>
        if k = 0x10#8 then some (.lookup tag (i2 ++ i1 ++ i0) kind (l1 ++ l0)) else none
      | [k, d1, d0, _] =>
        if k = 0x11#8 then some (.ack (d1 ++ d0))
        else if k = 0x12#8 then some (.cancel (d1 ++ d0)) else none
      | [k, tag, _] => if k = 0x13#8 then some (.ping tag) else none
      | _ => none)
  else none

/-- The content bytes of an inbound message (R192). -/
def InMsg.content : InMsg → List Byte
  | .lookup tag ident kind length => withCheck ([0x10#8, tag] ++ be24 ident ++ [kind] ++ be16 length)
  | .ack id => withCheck ([0x11#8] ++ be16 id)
  | .cancel id => withCheck ([0x12#8] ++ be16 id)
  | .ping tag => withCheck [0x13#8, tag]

/-! ### Host frames (R194) -/

/-- The command codes (R194). -/
def hostCode : HostCmd → Byte
  | .nop => 0x00#8
  | .identify => 0x01#8
  | .tableSummary => 0x02#8
  | .start => 0x08#8
  | .stop => 0x09#8
  | .resume => 0x0A#8
  | .keepalive => 0x0B#8
  | .warmRestart => 0x0C#8
  | .setTimebase => 0x10#8
  | .setSupervision => 0x11#8
  | .setOfferLimit => 0x12#8
  | .setEventLevels => 0x13#8
  | .portOpen => 0x18#8
  | .portClose => 0x19#8
  | .readPort => 0x1A#8
  | .begin => 0x20#8
  | .stageInsert => 0x21#8
  | .stageRemove => 0x22#8
  | .stageAmend => 0x23#8
  | .stageRenew => 0x24#8
  | .commit => 0x25#8
  | .discard => 0x26#8
  | .commitResult => 0x27#8
  | .readEntry => 0x30#8
  | .walkFirst => 0x31#8
  | .walkNext => 0x32#8
  | .listRetired => 0x33#8
  | .collect => 0x34#8
  | .probe => 0x35#8
  | .readTicket => 0x38#8
  | .readEvents => 0x40#8
  | .clearEvents => 0x41#8

/-- Every host command (R194). -/
def hostCmds : List HostCmd :=
  [.nop, .identify, .tableSummary, .start, .stop, .resume, .keepalive, .warmRestart,
    .setTimebase, .setSupervision, .setOfferLimit, .setEventLevels, .portOpen, .portClose, .readPort,
    .begin, .stageInsert, .stageRemove, .stageAmend, .stageRenew, .commit, .discard, .commitResult,
    .readEntry, .walkFirst, .walkNext, .listRetired, .collect, .probe, .readTicket,
    .readEvents, .clearEvents]

/-- The command of a code byte, where there is one (R194). -/
def hostCmdOf (code : Byte) : Option HostCmd := hostCmds.find? (fun c => hostCode c == code)

/-- The parameter length a command requires (R194). -/
def paramLength : HostCmd → Nat
  | .setTimebase => 2
  | .setSupervision => 2
  | .setOfferLimit => 1
  | .setEventLevels => 3
  | .portOpen => 2
  | .portClose => 1
  | .readPort => 1
  | .stageInsert => 32
  | .stageRemove => 2
  | .stageAmend => 22
  | .stageRenew => 2
  | .readEntry => 2
  | .listRetired => 2
  | .collect => 2
  | .probe => 7
  | .readTicket => 1
  | .clearEvents => 2
  | .nop => 0
  | .identify => 0
  | .tableSummary => 0
  | .start => 0
  | .stop => 0
  | .resume => 0
  | .keepalive => 0
  | .warmRestart => 0
  | .begin => 0
  | .commit => 0
  | .discard => 0
  | .commitResult => 0
  | .walkFirst => 0
  | .walkNext => 0
  | .readEvents => 0

/-- A response less its check byte: sequence, result, data length and data (R143, R194). -/
def Response.bytes (r : Response) : List Byte :=
  [r.seq, r.result.code, countByte r.data.length] ++ r.data

end Sys2Proof.Machine
end

