-- ==== Sys2Proof/WellFormed.lean ====
section
/-!
DEFINITION. Well-formed commands: terms that are an event of their own row. What `exec` does with any
other term is said at its meaning.
-/

namespace Sys2Proof

open Sys2Proof.Machine

/-- The host command of a row with its frame; the other rows carry none. -/
def Instr.hostFrame? : Instr → Option (HostCmd × HostFrame)
  | .nop f => some (.nop, f)
  | .identify f => some (.identify, f)
  | .tableSummary f => some (.tableSummary, f)
  | .start f => some (.start, f)
  | .stop f => some (.stop, f)
  | .resume f => some (.resume, f)
  | .keepalive f => some (.keepalive, f)
  | .warmRestart f => some (.warmRestart, f)
  | .setTimebase f => some (.setTimebase, f)
  | .setSupervision f => some (.setSupervision, f)
  | .setOfferLimit f => some (.setOfferLimit, f)
  | .setEventLevels f => some (.setEventLevels, f)
  | .readEvents f => some (.readEvents, f)
  | .clearEvents f => some (.clearEvents, f)
  | .portOpen f => some (.portOpen, f)
  | .portClose f => some (.portClose, f)
  | .readPort f => some (.readPort, f)
  | .begin f => some (.begin, f)
  | .stageInsert f => some (.stageInsert, f)
  | .stageRemove f => some (.stageRemove, f)
  | .stageAmend f => some (.stageAmend, f)
  | .stageRenew f => some (.stageRenew, f)
  | .commit f => some (.commit, f)
  | .discard f => some (.discard, f)
  | .commitResult f => some (.commitResult, f)
  | .readEntry f => some (.readEntry, f)
  | .walkFirst f => some (.walkFirst, f)
  | .walkNext f => some (.walkNext, f)
  | .listRetired f => some (.listRetired, f)
  | .collect f => some (.collect, f)
  | .probe f => some (.probe, f)
  | .readTicket f => some (.readTicket, f)
  | _ => none

/-- The row of a host command, carrying a frame. -/
def HostCmd.instr : HostCmd → HostFrame → Instr
  | .nop, f => .nop f
  | .identify, f => .identify f
  | .tableSummary, f => .tableSummary f
  | .start, f => .start f
  | .stop, f => .stop f
  | .resume, f => .resume f
  | .keepalive, f => .keepalive f
  | .warmRestart, f => .warmRestart f
  | .setTimebase, f => .setTimebase f
  | .setSupervision, f => .setSupervision f
  | .setOfferLimit, f => .setOfferLimit f
  | .setEventLevels, f => .setEventLevels f
  | .readEvents, f => .readEvents f
  | .clearEvents, f => .clearEvents f
  | .portOpen, f => .portOpen f
  | .portClose, f => .portClose f
  | .readPort, f => .readPort f
  | .begin, f => .begin f
  | .stageInsert, f => .stageInsert f
  | .stageRemove, f => .stageRemove f
  | .stageAmend, f => .stageAmend f
  | .stageRenew, f => .stageRenew f
  | .commit, f => .commit f
  | .discard, f => .discard f
  | .commitResult, f => .commitResult f
  | .readEntry, f => .readEntry f
  | .walkFirst, f => .walkFirst f
  | .walkNext, f => .walkNext f
  | .listRetired, f => .listRetired f
  | .collect, f => .collect f
  | .probe, f => .probe f
  | .readTicket, f => .readTicket f

/-- A term is an event of its own row: a command frame has at most 60 parameter bytes (R142), the
MOSI bytes of FRAME_ERROR are no complete frame (R145), the code of BAD_COMMAND is no command's
(R194), an arriving frame has content, of which 9
bytes are held where it is too long and at most 9 otherwise (R123), and the byte of BAD_ESCAPE is neither an escaped
content byte nor the delimiter (R125). -/
def Instr.wellFormed : Instr → Bool
  | .frameError mosi => !frameComplete mosi
  | .badCommand code f => (hostCmdOf code).isNone && decide (f.params.length ≤ Config.maxParams)
  | .frameArrival _ content => !content.bytes.isEmpty
      && decide (content.bytes.length ≤ Config.maxContent)
      && (!content.tooLong || content.bytes.length == Config.maxContent)
  | .badEscape _ b => b != 0xF5#8 && b != 0xF4#8 && b != Config.delimiter
  | i =>
    match i.hostFrame? with
    | some (_, f) => decide (f.params.length ≤ Config.maxParams)
    | none => true

end Sys2Proof
end

