-- ==== Sys2Proof/Decode.lean ====
section
/-!
DEFINITION. Decoding. The opcode table gives no row any bits, so no word of it spells a command. What
the outside sends is bytes on two kinds of wire, and both are read here: the MOSI bytes of an SPI
transaction (R142, R145), and the bytes of a query link (R123, R125).
-/

namespace Sys2Proof

open Sys2Proof.Machine

/-- The command a word of the opcode table spells: none, since the table gives no row any bits. -/
def decodeTableWord (_nbits _w : Nat) : Option Instr := none

/-- The command that the MOSI bytes of an SPI transaction spell (R142, R145 tests 1 and 4). Bytes after
a complete frame are ignored. -/
def decodeMosi (mosi : List Byte) : Instr :=
  if frameComplete mosi then
    let n := (byteAt mosi 2).toNat
    let f : HostFrame := ⟨byteAt mosi 0, (mosi.drop 3).take n, byteAt mosi (n + 3)⟩
    match hostCmdOf (byteAt mosi 1) with
    | some c => c.instr f
    | none => .badCommand (byteAt mosi 1) f
  else .frameError mosi

/-- The command that the MOSI bits of an SPI transaction spell at its CS# rise (R141). -/
def decodeMosiBits (bits : List Bool) : Instr := decodeMosi (spiBytes bits)

/-- What a receiver holds between two bytes of its link: nothing in HUNT; in FRAME the content so far, and
whether the last byte was the escape byte (R123). -/
inductive LineReceiver where
  | hunt
  | frame (content : LinkContent) (escaped : Bool)
deriving DecidableEq, Repr

/-- One more content byte, unescaped: a frame is held no further than its ninth byte, and one with more
is counted as too long (R123). -/
def LinkContent.push (content : LinkContent) (b : Byte) : LinkContent :=
  if content.bytes.length < Config.maxContent then { content with bytes := content.bytes ++ [b] }
  else { content with tooLong := true }

/-- One byte received on a link, with the event it brings if it brings one (R123, R125). -/
def receiveByte (p : PortNo) (r : LineReceiver) (b : Byte) : LineReceiver × List Instr :=
  match r with
  | .hunt => if b = Config.delimiter then (.frame .empty false, [.huntDelimiter p]) else (.hunt, [])
  | .frame content true =>
    if b = Config.delimiter then (.frame .empty false, [])
    else if b = Config.delimiter ^^^ Config.escapeMask ∨ b = Config.escape ^^^ Config.escapeMask then
      (.frame (content.push (b ^^^ Config.escapeMask)) false, [])
    else (.hunt, [.badEscape p b])
  | .frame content false =>
    if b = Config.delimiter then
      (.frame .empty false, if content.bytes.isEmpty then [] else [.frameArrival p content])
    else if b = Config.escape then (.frame content true, [])
    else (.frame (content.push b) false, [])

/-- A run of bytes received on a link, with the events it brings in their order (R123). -/
def receiveBytes (p : PortNo) : LineReceiver → List Byte → LineReceiver × List Instr
  | r, [] => (r, [])
  | r, b :: rest =>
    let one := receiveByte p r b
    let others := receiveBytes p one.1 rest
    (others.1, one.2 ++ others.2)

end Sys2Proof
end

