-- ==== Sys2Proof/Machine/Flags.lean ====
section
/-!
DEFINITION. The event unit's flags, port sets and lines (R179 to R181), and the status word (R149).
-/

namespace Sys2Proof.Machine

/-- The number of an event kind (R179). -/
def EventKind.number : EventKind → Fin 11
  | .initDone => 0
  | .commitDone => 1
  | .commitFailed => 2
  | .entryExpired => 3
  | .singleSpent => 4
  | .ticketRefused => 5
  | .offerTimeout => 6
  | .portOverrun => 7
  | .linkError => 8
  | .fallbackEntered => 9
  | .hostFrameError => 10

/-- The set that holds one event kind. -/
def EventKind.bit (k : EventKind) : BitVec 11 := 1#11 <<< k.number.val

/-- A kind's pending flag is set (R179). -/
def EventUnit.isPending (e : EventUnit) (k : EventKind) : Bool := e.flags.getLsbD k.number.val

/-- Raising a kind sets its pending flag (R180). -/
def raise (k : EventKind) (s : State) : State :=
  { s with evu := { s.evu with flags := s.evu.flags ||| k.bit } }

/-- Raising PORT_OVERRUN also adds the port to its port set (R127, R180). -/
def raiseOverrun (p : PortNo) (s : State) : State :=
  { s with evu := { s.evu with
      flags := s.evu.flags ||| EventKind.portOverrun.bit
      overrunPorts := s.evu.overrunPorts ||| (1#8 <<< p.val) } }

/-- Raising LINK_ERROR also adds the port to its port set (R126, R180). -/
def raiseLinkError (p : PortNo) (s : State) : State :=
  { s with evu := { s.evu with
      flags := s.evu.flags ||| EventKind.linkError.bit
      linkErrorPorts := s.evu.linkErrorPorts ||| (1#8 <<< p.val) } }

/-- Some pending kind has this level (R181). -/
def EventUnit.holds (e : EventUnit) (level : EventLevel) : Bool :=
  (List.finRange 11).any (fun k => e.flags.getLsbD k.val && e.levels[k.val] == level)

/-- ALERT# is driven low: some pending kind has level ALERT (R181). -/
def alertLow (s : State) : Bool := s.evu.holds .alert

/-- NOTE# is driven low: some pending kind has level NOTE (R181). -/
def noteLow (s : State) : Bool := s.evu.holds .note

/-- A slot is FREE (R1). -/
def SlotBody.isFree : SlotBody → Bool
  | .free => true
  | _ => false

/-- A slot is LIVE (R1). -/
def SlotBody.isLive : SlotBody → Bool
  | .live _ => true
  | _ => false

/-- A slot is RETIRING (R1). -/
def SlotBody.isRetiring : SlotBody → Bool
  | .retiring _ _ _ => true
  | _ => false

/-- A slot is RETIRED (R1). -/
def SlotBody.isRetired : SlotBody → Bool
  | .retired _ _ => true
  | _ => false

/-- The number of slots in a state (R1, R153). -/
def RouteTable.count (t : RouteTable) (which : SlotBody → Bool) : Nat :=
  t.slots.toList.countP (fun sl => which sl.body)

/-- The free-slot count (R1). -/
def freeCount (s : State) : Nat := s.rtb.count SlotBody.isFree

/-- The status word as the device stands (R149). -/
def statusWord (s : State) : Half :=
  BitVec.ofNat 16
    (s.ctu.device.code.toNat * 16384 + s.edu.txn.code * 4096
      + (alertLow s).toNat * 2048 + (noteLow s).toNat * 1024 + freeCount s)

end Sys2Proof.Machine
end

