-- ==== Sys2Proof/Machine/Operands.lean ====
section
/-!
DEFINITION. The entry images: reading a definition or action image, returning it, and the FIELD
test over it (R101, R189, R190, R191).
-/

namespace Sys2Proof.Machine

/-! ### Reading and returning images (R189, R190) -/

/-- The action fields of a 20-byte action image, which is bytes 10 to 29 of a definition image
(R189). The rewrite identifier is absent when its present byte is 0 (R110). -/
def Action.ofImage (img : List Byte) : Action where
  disposition   := .ofCode (byteAt img 0)
  destinations  := byteAt img 1
  rewrite       := if byteAt img 2 = 0#8 then none else some (identAt img 3)
  label         := halfAt img 6
  lengthMin     := halfAt img 8
  lengthMax     := halfAt img 10
  paceInterval  := halfAt img 12
  paceMode      := .ofCode (byteAt img 14)
  lifetimeKind  := .ofCode (byteAt img 15)
  lifetimeValue := identAt img 16
  flags         := .ofCode (byteAt img 19)

/-- The definition of a 32-byte definition image (R189). -/
def Definition.ofImage (img : List Byte) : Definition where
  precedence := halfAt img 0
  identValue := identAt img 2
  identMask  := identAt img 5
  kind       := .ofCode (byteAt img 8)
  sources    := byteAt img 9
  action     := .ofImage (img.drop 10)

/-- The rewrite bytes of an image: the present byte and the identifier (R189). -/
def rewriteBytes : Option Ident → List Byte
  | none => [0#8, 0#8, 0#8, 0#8]
  | some i => 1#8 :: be24 i

/-- The 20 bytes of an action image (R189). -/
def Action.image (a : Action) : List Byte :=
  [a.disposition.code, a.destinations] ++ rewriteBytes a.rewrite ++ be16 a.label
    ++ be16 a.lengthMin ++ be16 a.lengthMax ++ be16 a.paceInterval
    ++ [a.paceMode.code, a.lifetimeKind.code] ++ be24 a.lifetimeValue ++ [a.flags.code]

/-- The 32 bytes of a definition image; the trailing bytes are zero (R189, R190). -/
def Definition.image (d : Definition) : List Byte :=
  be16 d.precedence ++ be24 d.identValue ++ be24 d.identMask ++ [d.kind.code, d.sources]
    ++ d.action.image ++ [0#8, 0#8]

/-! ### The FIELD test (R101, R191) -/

/-- The number of the first field whose test fails, of a list of field numbers and failures. -/
def firstFailing (tests : List (Nat × Bool)) : Option Nat :=
  (tests.find? (fun t => t.2)).map (fun t => t.1)

/-- The failures of fields 6 to 16 over an action image (R101). -/
def actionTests (img : List Byte) : List (Nat × Bool) :=
  [ (6, decide (1 < (byteAt img 0).toNat)),
    (7, byteAt img 0 == 0#8 && byteAt img 1 == 0#8),
    (8, decide (1 < (byteAt img 2).toNat) || (byteAt img 2 == 0#8 && identAt img 3 != 0#24)),
    (10, decide (Config.maxLength < (halfAt img 8).toNat)),
    (11, decide (Config.maxLength < (halfAt img 10).toNat ∨ (halfAt img 10).toNat < (halfAt img 8).toNat)),
    (13, decide (1 < (byteAt img 14).toNat)),
    (14, decide (2 < (byteAt img 15).toNat)),
    (15, (byteAt img 15 == 1#8 || byteAt img 15 == 2#8) && identAt img 16 == 0#24),
    (16, decide (16 ≤ (byteAt img 19).toNat)) ]

/-- The failures of fields 1 to 17 over a definition image, in field-number order (R101). -/
def definitionTests (img : List Byte) : List (Nat × Bool) :=
  [ (1, decide (Config.maxPrecedence < (halfAt img 0).toNat)),
    (4, decide (2 < (byteAt img 8).toNat)),
    (5, byteAt img 9 == 0#8) ]
  ++ actionTests (img.drop 10)
  ++ [ (17, halfAt img 30 != 0#16) ]

/-- The field number an action image fails the FIELD test with, if it does (R101). -/
def actionFailure (img : List Byte) : Option Nat := firstFailing (actionTests img)

/-- The field number a definition image fails the FIELD test with, if it does (R101). -/
def definitionFailure (img : List Byte) : Option Nat := firstFailing (definitionTests img)

/-! ### Sets of segments -/

/-- The set that holds one segment (R188). -/
def segBit (p : PortNo) : SegSet := 1#8 <<< p.val

/-- A segment is in a set (R188). -/
def SegSet.has (set : SegSet) (p : PortNo) : Bool := set.getLsbD p.val

end Sys2Proof.Machine
end

