-- ==== Sys2Proof/Machine/Ops.lean ====
section
/-!
DEFINITION. The shared operations of the 8520: reading and writing slots, ticket records and ports,
stored ticks, placing outbound messages, completing and withdrawing tickets, the retirement
procedure, destinations, load, hard reset, and the taking of a host command.
-/

namespace Sys2Proof.Machine

/-! ### Reading and writing the parts of the state -/

/-- A slot of the route table. -/
def State.slot (s : State) (i : SlotNo) : Slot := s.rtb.slots[i.val]

/-- The state with one slot written. -/
def State.setSlot (s : State) (i : SlotNo) (v : Slot) : State :=
  { s with rtb := { s.rtb with slots := s.rtb.slots.set i.val v } }

/-- A ticket record. -/
def State.record (s : State) (r : RecNo) : TicketRecord := s.rlu.records[r.val]

/-- The state with one ticket record written. -/
def State.setRecord (s : State) (r : RecNo) (v : TicketRecord) : State :=
  { s with rlu := { s.rlu with records := s.rlu.records.set r.val v } }

/-- A query port. -/
def State.port (s : State) (p : PortNo) : Port := s.qp[p.val]

/-- The state with one query port written. -/
def State.setPort (s : State) (p : PortNo) (v : Port) : State := { s with qp := s.qp.set p.val v }

/-- A slot's state written, its era kept. -/
def State.setBody (s : State) (i : SlotNo) (b : SlotBody) : State :=
  s.setSlot i { s.slot i with body := b }

/-! ### Entries -/

/-- The action fields of an entry. -/
def Entry.action (e : Entry) : Action := e.definition.action

/-- The order key of an entry (R15). -/
def Entry.key (e : Entry) : OrderKey := ⟨e.definition.precedence, e.serial⟩

/-- One order key comes before another (R15). -/
def OrderKey.before (a b : OrderKey) : Bool :=
  decide (a.precedence < b.precedence) || (a.precedence == b.precedence && decide (a.serial < b.serial))

/-- The entry of a LIVE slot. -/
def SlotBody.live? : SlotBody → Option LiveEntry
  | .live l => some l
  | _ => none

/-- The entry of a slot that is not FREE. -/
def SlotBody.entry? : SlotBody → Option Entry
  | .free => none
  | .live l => some l.entry
  | .retiring e _ _ => some e
  | .retired e _ => some e

/-- The ticket field of a slot (R10, R14). -/
def SlotBody.ticket? : SlotBody → Option TicketId
  | .live l => l.ticket
  | .retiring _ _ t => some t
  | _ => none

/-- The handle of the entry a slot holds (R4). -/
def State.handleOf (s : State) (i : SlotNo) : Handle := ⟨(s.slot i).era, i⟩

/-- The slot of the entry a 16-bit handle names: bit 15 is 0, the slot is not FREE, and the era is
the slot's (R4). -/
def State.named (s : State) (w : Half) : Option SlotNo :=
  if !w.getLsbD 15 && !(s.slot (handleSlot w)).body.isFree && (s.slot (handleSlot w)).era == handleEra w
  then some (handleSlot w) else none

/-- The slot of the LIVE entry a 16-bit handle names (R5, R104). -/
def State.namedLive (s : State) (w : Half) : Option SlotNo :=
  (s.named w).filter (fun i => (s.slot i).body.isLive)

/-- An entry is dormant: the device is in FALLBACK and the entry lacks ESSENTIAL (R16). -/
def dormant (s : State) (e : Entry) : Bool :=
  s.ctu.device == .fallback && !e.action.flags.essential

/-- Every slot with its number, in rising number (R1). -/
def numberedSlots (s : State) : List (SlotNo × Slot) := (List.finRange 512).zip s.rtb.slots.toList

/-- The LIVE entries with their slots, in slot order (R15). -/
def liveEntries (s : State) : List (SlotNo × LiveEntry) :=
  (numberedSlots s).filterMap (fun x => x.2.body.live?.map (fun l => (x.1, l)))

/-- The entry with the smallest order key of a list of LIVE entries (R15, R34). -/
def leastKey : List (SlotNo × LiveEntry) → Option (SlotNo × LiveEntry)
  | [] => none
  | x :: rest =>
    match leastKey rest with
    | none => some x
    | some y => if y.2.entry.key.before x.2.entry.key then some y else some x

/-- The lowest-numbered FREE slot (R110). -/
def lowestFree (s : State) : Option SlotNo :=
  ((numberedSlots s).find? (fun x => x.2.body.isFree)).map (fun x => x.1)

/-- The window opens at a tick and is OPEN (R12, R25, R110, R112). -/
def LiveEntry.openAt (l : LiveEntry) (t : Tick) : LiveEntry :=
  { l with entry := { l.entry with windowOpen := t }, window := .opened }

/-- The window is SHUT until a tick (R12, R20, R21). -/
def LiveEntry.shutUntil (l : LiveEntry) (t : Tick) : LiveEntry :=
  { l with entry := { l.entry with windowOpen := t }, window := .shut }

/-- The deadline that an INSERT, AMEND or RENEW at a tick gives (R13, R76). -/
def Action.deadlineFrom (a : Action) (t : Tick) : Option Tick :=
  match a.lifetimeKind with
  | .permanent => none
  | .idle => some (t + a.lifetimeValue.setWidth 32)
  | .fixed => some (t + a.lifetimeValue.setWidth 32)

/-! ### Stored ticks (R172) -/

/-- The distance of a stored tick ahead of now, modulo 2^32 (R172). -/
def ahead (now t : Tick) : Tick := t - now

/-- A stored tick is reached: its distance is 0, or 2^31 or more (R172). -/
def reached (now t : Tick) : Bool := ahead now t == 0#32 || decide (2 ^ 31 ≤ (ahead now t).toNat)

/-- The signed distance by which the release list is ordered (R54). -/
def signedAhead (now t : Tick) : Int := (ahead now t).toInt

/-! ### Ports and outbound queues -/

/-- The number of answers in a port's outbound queue (R132). -/
def Port.answers (q : Port) : Nat := q.outbound.countP (fun m => !m.body.isNotice)

/-- The number of notices in a port's outbound queue (R160). -/
def Port.notices (q : Port) : Nat := q.outbound.countP (fun m => m.body.isNotice)

/-- The number of WITHDRAWN and SUPERSEDED notices in a port's outbound queue (R55). -/
def Port.countedNotices (q : Port) : Nat := q.outbound.countP (fun m => m.body.isCounted)

/-- A port is OPEN and its outbound queue has room for an answer (R26, R129). -/
def Port.ready (q : Port) : Bool := q.state == .opened && decide (q.answers < Config.answerRoom)

/-- Placing a message at the tail of an outbound queue: it carries the OVERRUN flag when the overrun
mark is set, and its placement clears the mark (R128, R132). -/
def place (p : PortNo) (b : OutBody) (s : State) : State :=
  s.setPort p { s.port p with
    outbound := (s.port p).outbound ++ [⟨(s.port p).overrun, b⟩]
    overrun := false }

/-- The inbound queue of a port without its head (R129). -/
def popInbound (p : PortNo) (s : State) : State :=
  s.setPort p { s.port p with inbound := (s.port p).inbound.tail }

/-- How the line stands after a flush: a message in transmission, which is the head of a queue that
is not empty (R133), is ended with the abort sequence (R135). -/
def Port.flushedLine (q : Port) : LineEnd := if q.outbound.isEmpty then q.line else .aborted

/-- The set of OPEN ports. -/
def openPorts (s : State) : SegSet :=
  (List.finRange 8).foldl (fun set p => if (s.port p).state = .opened then set ||| segBit p else set) 0#8

/-- Destinations: an entry's destination set less the asking or owning segment, unless the entry has
REFLECT set, and less every segment whose port is CLOSED (R39, R60). -/
def destinations (s : State) (own : PortNo) (a : Action) : SegSet :=
  (if a.flags.reflect then a.destinations else a.destinations &&& ~~~(segBit own)) &&& openPorts s

/-! ### Tickets -/

/-- What a record holds while it is not FREE (R51). -/
def TicketBody.held? : TicketBody → Option Held
  | .free => none
  | .pending h => some h
  | .offered h _ _ => some h

/-- A record is FREE (R51). -/
def TicketBody.isFree : TicketBody → Bool
  | .free => true
  | _ => false

/-- A record is PENDING (R51). -/
def TicketBody.isPending : TicketBody → Bool
  | .pending _ => true
  | _ => false

/-- A record is OFFERED (R51). -/
def TicketBody.isOffered : TicketBody → Bool
  | .offered _ _ _ => true
  | _ => false

/-- A record stands for a ticket of this port. -/
def TicketBody.ownedBy (b : TicketBody) (p : PortNo) : Bool :=
  match b.held? with
  | some h => h.owner == p
  | none => false

/-- The current id of a record (R52). -/
def State.ticketId (s : State) (r : RecNo) : TicketId := ⟨(s.record r).serial, r⟩

/-- The id a record takes at its next creation or supersede (R52). -/
def State.nextTicketId (s : State) (r : RecNo) : TicketId := ⟨(s.record r).serial + 1#4, r⟩

/-- The record of the ticket a 16-bit id names (R52). -/
def State.namedTicket (s : State) (w : Half) : Option RecNo :=
  (ticketNumber w).filter (fun r => !(s.record r).body.isFree && (s.record r).serial == ticketSerial w)

/-- The number of records in a state (R51, R153). -/
def ReleaseUnit.count (u : ReleaseUnit) (which : TicketBody → Bool) : Nat :=
  u.records.toList.countP (fun r => which r.body)

/-- The free ticket count (R51). -/
def freeTickets (s : State) : Nat := s.rlu.count TicketBody.isFree

/-- The number of tickets a port owns (R55). -/
def ticketsOwned (s : State) (p : PortNo) : Nat := s.rlu.count (fun b => b.ownedBy p)

/-- The ticket load of a port: the tickets it owns and its queued WITHDRAWN and SUPERSEDED notices
(R55). -/
def load (s : State) (p : PortNo) : Nat := ticketsOwned s p + (s.port p).countedNotices

/-- The quota test of a port (R56); a CLOSED port, which only PROBE can ask about, has load 0
(R161). -/
def hasQuota (s : State) (p : PortNo) : Bool :=
  match (s.port p).state with
  | .opened => decide (load s p < (s.port p).quota)
  | .closed => decide (0 < (s.port p).quota)

/-- Where a retirement finishes: FREE with the era incremented for cause REMOVED or with QUIET set,
RETIRED otherwise (R81). -/
def finishedSlot (era : BitVec 6) (cause : RetireCause) (e : Entry) : Slot :=
  if cause = .removed ∨ e.action.flags.quiet = true then ⟨era + 1#6, .free⟩ else ⟨era, .retired e cause⟩

/-- What the completion of its ticket does to the owning entry: the ticket field is cleared, and a
RETIRING entry finishes its retirement (R21, R70). -/
def clearTicketField (i : SlotNo) (s : State) : State :=
  match (s.slot i).body with
  | .live l => s.setBody i (.live { l with ticket := none })
  | .retiring e cause _ => s.setSlot i (finishedSlot (s.slot i).era cause e)
  | .free => s
  | .retired _ _ => s

/-- A record becomes FREE, keeping its serial, joins the end of the free order and leaves the
release list (R53, R70). -/
def freeRecord (r : RecNo) (s : State) : State :=
  { s with rlu :=
    { records := s.rlu.records.set r.val ⟨(s.record r).serial, .free⟩
      freeOrder := s.rlu.freeOrder ++ [r]
      releaseList := s.rlu.releaseList.filter (fun x => x != r) } }

/-- The completion of a ticket (R70). -/
def completeTicket (r : RecNo) (s : State) : State :=
  match (s.record r).body.held? with
  | none => s
  | some h => clearTicketField h.handle.slot (freeRecord r s)

/-- The completion of several tickets one after another. -/
def completeAll (rs : List RecNo) (s : State) : State := rs.foldl (fun t r => completeTicket r t) s

/-- A withdrawal: a PENDING ticket gets a WITHDRAWN notice in its owner's queue and completes; any
other record is left as it is (R67). -/
def withdraw (reason : WithdrawReason) (r : RecNo) (s : State) : State :=
  match (s.record r).body with
  | .pending h => completeTicket r (place h.owner (.withdrawn (s.ticketId r) h.tag reason) s)
  | .free => s
  | .offered _ _ _ => s

/-- The withdrawal of several tickets one after another (R69). -/
def withdrawAll (reason : WithdrawReason) (rs : List RecNo) (s : State) : State :=
  rs.foldl (fun t r => withdraw reason r t) s

/-- The withdrawal of the PENDING ticket an entry owns, if it owns one (R67, R68). -/
def withdrawOf (reason : WithdrawReason) (i : SlotNo) (s : State) : State :=
  match (s.slot i).body.ticket? with
  | some t => withdraw reason t.number s
  | none => s

/-- The retirement procedure on the entry of a slot (R80): withdraw its PENDING ticket, leave LIVE,
and hold the entry RETIRING while it owns a ticket or finish at once. -/
def retire (cause : RetireCause) (i : SlotNo) (s : State) : State :=
  let s1 : State :=
    if (s.slot i).body.isLive then
      (match cause with
        | .removed => withdrawOf .removed i s
        | .expired => withdrawOf .expired i s
        | .spent => s)
    else s
  match (s1.slot i).body with
  | .live l =>
    (match l.ticket with
      | some t => s1.setBody i (.retiring l.entry cause t)
      | none => s1.setSlot i (finishedSlot (s1.slot i).era cause l.entry))
  | .free => s1
  | .retiring _ _ _ => s1
  | .retired _ _ => s1

/-- A due tick's place in the release list: after every ticket whose due tick is at or before its own
and ahead of every ticket whose due tick is later (R54). -/
def joinReleaseList (now : Tick) (due : RecNo → Tick) (r : RecNo) : List RecNo → List RecNo
  | [] => [r]
  | x :: rest =>
    if signedAhead now (due x) ≤ signedAhead now (due r) then x :: joinReleaseList now due r rest
    else r :: x :: rest

/-- The due tick of a record (0 where it has none). -/
def State.dueOf (s : State) (r : RecNo) : Tick :=
  match (s.record r).body.held? with
  | some h => h.due
  | none => 0#32

/-- The ticket field of a LIVE entry takes an id (R14). -/
def setTicketField (i : SlotNo) (t : TicketId) (s : State) : State :=
  match (s.slot i).body with
  | .live l => s.setBody i (.live { l with ticket := some t })
  | .free => s
  | .retiring _ _ _ => s
  | .retired _ _ => s

/-! ### Hard reset (R163) -/

/-- An SPI transaction in progress when the reset begins is lost (R150). -/
def SpiPhase.lost : SpiPhase → SpiPhase
  | .idle => .idle
  | .selected => .ignored
  | .ignored => .ignored

/-- A frame in transmission when a hard reset begins is cut off without the abort sequence (R139). -/
def Port.cutOff (q : Port) : Port :=
  { Port.reset with line := if q.outbound.isEmpty then q.line else .cutOff }

/-- Every block at its hard reset values, every operation in progress ended (R24, R28, R74, R118,
R139, R144, R155, R163, R185), with the reset cause and the levels of the supplies and RESET#. -/
def hardResetTo (cause : ResetCause) (hold low : Bool) (s : State) : State where
  rtb     := .reset
  pointer := 0
  rlu     := .reset
  edu     := .reset
  qp      := s.qp.map Port.cutOff
  hpt     := { HostPort.reset with phase := s.hpt.phase.lost }
  ctu     := { ControlUnit.reset with cause := cause, powerHold := hold, resetLow := low }
  evu     := .reset
  pending := s.pending

/-- The device is held in reset: the power-on hold has not ended, or RESET# is low (R163). -/
def held (s : State) : Bool := s.ctu.powerHold || s.ctu.resetLow

/-! ### Taking a host command (R144, R145) -/

/-- A result with its data. -/
structure Reply where
  result : ResultCode
  data   : List Byte
deriving DecidableEq, Repr

/-- OK with no data. -/
def Reply.ok : Reply := ⟨.ok, []⟩

/-- A result with no data (R143). -/
def Reply.bare (r : ResultCode) : Reply := ⟨r, []⟩

/-- The closing event of an SPI transaction: CS# is high, MISO is high-impedance, and the response
buffer takes the response of this transaction (R141, R144). -/
def closeSpi (seq : Byte) (r : Reply) (s : State) : State :=
  { s with hpt := { s.hpt with phase := .idle, miso := [], response := ⟨seq, r.result, r.data⟩ } }

/-- CS# rises unseen: the transaction was lost, or the device is held in reset (R150). -/
def releaseSpi (s : State) : State := { s with hpt := { s.hpt with phase := .idle, miso := [] } }

/-- The host port does not take this transaction (R150). -/
def spiUnseen (s : State) : Bool := held s || s.hpt.phase == .ignored

/-- The closing event of a complete frame with this command code, by the tests of R145 in their
order: a parameter length above 60, the check byte, INIT, and then `rest`. -/
def closeFrame (code : Byte) (f : HostFrame) (rest : State → State) (s : State) : State :=
  if spiUnseen s then releaseSpi s
  else if Config.maxParams < f.params.length then
    closeSpi f.seq (.bare .frameError) (raise .hostFrameError s)
  else if !frameChecks code f then closeSpi f.seq (.bare .badCheck) (raise .hostFrameError s)
  else if s.ctu.device = .init ∧ code ≠ hostCode .nop then closeSpi f.seq (.bare .notReady) s
  else rest s

/-- The closing event of a host command (R145): the frame's tests, the parameter length, and the
command's own course, whose reply the response buffer takes in the same event (R146). -/
def hostCommand (c : HostCmd) (f : HostFrame) (run : State → State × Reply) (s : State) : State :=
  closeFrame (hostCode c) f
    (fun s =>
      if f.params.length ≠ paramLength c then closeSpi f.seq (.bare .badParam) s
      else closeSpi f.seq (run s).2 (run s).1) s

end Sys2Proof.Machine
end

