-- ==== Sys2Proof/Machine/Reset.lean ====
section
/-!
DEFINITION. The reset family: POWER_ON, POWER_ON_HOLD_END, HARD_RESET, RESET_RELEASE and
MEMORY_CLEAR_COMPLETE (R163, R164, R178).
-/

namespace Sys2Proof.Machine

/-- What a step of the 8520 answers. -/
abbrev Result := Host.Outcome State Fault Refusal

/-- The release of a hard reset: the blocks hold their hard reset values, the device is in INIT, and
the memory clear begins (R163). -/
def releaseReset (s : State) : State := hardResetTo s.ctu.cause false false s

/-- POWER_ON: a hard reset and the power-on hold begin, and the cause is POWER_ON, whatever the level
of RESET# (R163, R178). -/
def execPowerOn (resetLow : Bool) (s : State) : Result := .next (hardResetTo .powerOn true resetLow s)

/-- POWER_ON_HOLD_END: the hold ends; with RESET# high the hard reset is released (R163). Taken
while the hold is in progress. -/
def execPowerOnHoldEnd (s : State) : Result :=
  if s.ctu.powerHold then
    (if s.ctu.resetLow then .next { s with ctu := { s.ctu with powerHold := false } }
     else .next (releaseReset s))
  else .next s

/-- HARD_RESET: RESET# falls. A fall during the power-on hold begins no new hard reset; any other
begins one with cause PIN (R163, R178). Taken while RESET# is high. -/
def execHardReset (s : State) : Result :=
  if s.ctu.resetLow then .next s
  else if s.ctu.powerHold then .next { s with ctu := { s.ctu with resetLow := true } }
  else .next (hardResetTo .pin false true s)

/-- RESET_RELEASE: RESET# rises; with the power-on hold ended the hard reset is released (R163).
Taken while RESET# is low. -/
def execResetRelease (s : State) : Result :=
  if s.ctu.resetLow then
    (if s.ctu.powerHold then .next { s with ctu := { s.ctu with resetLow := false } }
     else .next (releaseReset s))
  else .next s

/-- MEMORY_CLEAR_COMPLETE: the slot storage, the ticket records and the port queues hold their hard
reset contents, the device is in STANDBY, the timebase starts from 0, and INIT_DONE is raised
(R164). Taken in INIT once the reset is released. -/
def execMemoryClearComplete (s : State) : Result :=
  if s.ctu.device = .init ∧ held s = false then
    .next (raise .initDone
      { s with
        rtb := { s.rtb with slots := RouteTable.reset.slots }
        rlu := .reset
        qp  := s.qp.map (fun q => { q with inbound := [], outbound := [] })
        ctu := { s.ctu with device := .standby, now := 0#32, tickInProgress := s.ctu.tickPeriod } })
  else .next s

end Sys2Proof.Machine
end

