-- ==== Sys2Proof/Machine/Control.lean ====
section
/-!
DEFINITION. The control unit's commands: START, STOP, RESUME, KEEPALIVE, WARM_RESTART, SET_TIMEBASE,
SET_SUPERVISION and SET_OFFER_LIMIT (chapter 8, R75).
-/

namespace Sys2Proof.Machine

/-- Starting or restarting the supervision timer: its expiry tick is now plus the window, provided
that the window is above 0 (R173). -/
def startedTimer (c : ControlUnit) : Option Tick :=
  if c.window = 0#16 then none else some (c.now + c.window.setWidth 32)

/-- START: STANDBY to ACTIVE, with the supervision timer started (R165, R166). -/
def runStart (_ : List Byte) (s : State) : State × Reply :=
  if s.ctu.device = .standby then
    ({ s with ctu := { s.ctu with device := .active, timer := startedTimer s.ctu } }, .ok)
  else (s, .bare .wrongState)

/-- START (R166). -/
def execStart (f : HostFrame) (s : State) : Result := .next (hostCommand .start f (runStart f.params) s)

/-- STOP: ACTIVE or FALLBACK to STANDBY; every PENDING ticket is withdrawn with reason STOPPED in
release-list order and the timer stops (R69, R165, R167). -/
def runStop (_ : List Byte) (s : State) : State × Reply :=
  if s.ctu.device = .active ∨ s.ctu.device = .fallback then
    (withdrawAll .stopped s.rlu.releaseList
      { s with ctu := { s.ctu with device := .standby, timer := none } }, .ok)
  else (s, .bare .wrongState)

/-- STOP (R167). -/
def execStop (f : HostFrame) (s : State) : Result := .next (hostCommand .stop f (runStop f.params) s)

/-- RESUME: FALLBACK to ACTIVE, with the supervision timer started (R165, R168). -/
def runResume (_ : List Byte) (s : State) : State × Reply :=
  if s.ctu.device = .fallback then
    ({ s with ctu := { s.ctu with device := .active, timer := startedTimer s.ctu } }, .ok)
  else (s, .bare .wrongState)

/-- RESUME (R168). -/
def execResume (f : HostFrame) (s : State) : Result := .next (hostCommand .resume f (runResume f.params) s)

/-- KEEPALIVE: in ACTIVE the supervision timer is restarted when the window is above 0; in STANDBY and
FALLBACK there is no effect (R165, R174). -/
def runKeepalive (_ : List Byte) (s : State) : State × Reply :=
  if s.ctu.device = .active ∧ s.ctu.window ≠ 0#16 then
    ({ s with ctu := { s.ctu with timer := startedTimer s.ctu } }, .ok)
  else (s, .ok)

/-- KEEPALIVE (R174). -/
def execKeepalive (f : HostFrame) (s : State) : Result :=
  .next (hostCommand .keepalive f (runKeepalive f.params) s)

/-- A slot at warm restart: a LIVE entry keeps everything but its window, OPEN at now, and its ticket;
a RETIRING entry finishes its retirement; FREE and RETIRED slots are kept (R25, R73, R92). -/
def Slot.restarted (now : Tick) (sl : Slot) : Slot :=
  match sl.body with
  | .free => sl
  | .live l => { sl with body := .live { l.openAt now with ticket := none } }
  | .retiring e cause _ => finishedSlot sl.era cause e
  | .retired _ _ => sl

/-- The tickets at warm restart: every record FREE with its serial; the records freed join the free
order in rising record number (R53, R73). -/
def ReleaseUnit.restarted (u : ReleaseUnit) : ReleaseUnit where
  records     := u.records.map (fun r => { r with body := .free })
  freeOrder   := u.freeOrder ++ (List.finRange 96).filter (fun r => !u.records[r.val].body.isFree)
  releaseList := []

/-- A port at warm restart: an OPEN port keeps its state and quota, is flushed, and receives a PORT_UP
carrying STANDBY and the generation; a CLOSED port is kept (R136, R140). -/
def Port.restarted (generation : BitVec 16) (q : Port) : Port :=
  match q.state with
  | .closed => q
  | .opened => { q with
      inbound := []
      outbound := [⟨false, .portUp .standby generation⟩]
      overrun := false
      receiver := .hunt
      line := q.flushedLine }

/-- The warm restart (R169): the reactions of every block in one event. R165 says that no command of its
section changes the transaction; R169 and R118 have this one close it and abandon a build, and the model
follows them (DESIGN CHOICE, log 22). -/
def warmRestart (s : State) : State :=
  { s with
    rtb     := { s.rtb with slots := s.rtb.slots.map (Slot.restarted s.ctu.now) }
    pointer := 0
    rlu     := s.rlu.restarted
    edu     := .reset
    qp      := s.qp.map (Port.restarted s.rtb.generation)
    hpt     := { s.hpt with cursor := none }
    ctu     := { s.ctu with device := .standby, timer := none, cause := .warm }
    evu     := { s.evu with flags := 0#11, overrunPorts := 0#8, linkErrorPorts := 0#8 } }

/-- WARM_RESTART: in STANDBY, ACTIVE and FALLBACK the device restarts, keeping its table (R169). -/
def runWarmRestart (_ : List Byte) (s : State) : State × Reply := (warmRestart s, .ok)

/-- WARM_RESTART (R169). -/
def execWarmRestart (f : HostFrame) (s : State) : Result :=
  .next (hostCommand .warmRestart f (runWarmRestart f.params) s)

/-- SET_TIMEBASE: in STANDBY a value from 1 to 1000 becomes the tick period; the tick in progress
keeps its old period (R165, R171). -/
def runSetTimebase (params : List Byte) (s : State) : State × Reply :=
  if s.ctu.device = .standby then
    (if 1 ≤ (halfAt params 0).toNat ∧ (halfAt params 0).toNat ≤ 1000 then
      ({ s with ctu := { s.ctu with tickPeriod := halfAt params 0 } }, .ok)
    else (s, .bare .badParam))
  else (s, .bare .wrongState)

/-- SET_TIMEBASE (R171). -/
def execSetTimebase (f : HostFrame) (s : State) : Result :=
  .next (hostCommand .setTimebase f (runSetTimebase f.params) s)

/-- SET_SUPERVISION: the window takes the value; in ACTIVE the timer restarts from now, or stops for
0 (R165, R175). -/
def runSetSupervision (params : List Byte) (s : State) : State × Reply :=
  let c := { s.ctu with window := halfAt params 0 }
  if s.ctu.device = .active then ({ s with ctu := { c with timer := startedTimer c } }, .ok)
  else ({ s with ctu := c }, .ok)

/-- SET_SUPERVISION (R175). -/
def execSetSupervision (f : HostFrame) (s : State) : Result :=
  .next (hostCommand .setSupervision f (runSetSupervision f.params) s)

/-- SET_OFFER_LIMIT: a value from 1 to 255 becomes the offer limit; 0 is BAD_PARAM (R75). -/
def runSetOfferLimit (params : List Byte) (s : State) : State × Reply :=
  if byteAt params 0 = 0#8 then (s, .bare .badParam)
  else ({ s with ctu := { s.ctu with offerLimit := byteAt params 0 } }, .ok)

/-- SET_OFFER_LIMIT (R75). -/
def execSetOfferLimit (f : HostFrame) (s : State) : Result :=
  .next (hostCommand .setOfferLimit f (runSetOfferLimit f.params) s)

end Sys2Proof.Machine
end

