-- ==== Sys2Proof/Machine/Edit.lean ====
section
/-!
DEFINITION. The edit family: BEGIN, the STAGE commands, COMMIT with its validation, CUTOVER with its
ops, DISCARD and COMMIT_RESULT (chapter 5).
-/

namespace Sys2Proof.Machine

/-! ### Staging (R95 to R98) -/

/-- BEGIN: a CLOSED transaction opens with an empty op list (R96). -/
def runBegin (_ : List Byte) (s : State) : State × Reply :=
  match s.edu.txn with
  | .closed => ({ s with edu := { s.edu with txn := .opened, ops := [] } }, .ok)
  | .opened => (s, .bare .alreadyOpen)
  | .building => (s, .bare .busy)

/-- BEGIN (R96). -/
def execBegin (f : HostFrame) (s : State) : Result := .next (hostCommand .begin f (runBegin f.params) s)

/-- A STAGE command: in OPEN with fewer than 16 ops the op is appended and its index answered (R97). -/
def stage (op : Op) (s : State) : State × Reply :=
  match s.edu.txn with
  | .opened =>
    if s.edu.ops.length < Config.maxOps then
      ({ s with edu := { s.edu with ops := s.edu.ops ++ [op] } }, ⟨.ok, [countByte s.edu.ops.length]⟩)
    else (s, .bare .stageFull)
  | .closed => (s, .bare .noTransaction)
  | .building => (s, .bare .busy)

/-- STAGE_INSERT: the 32 bytes are the definition image (R97). -/
def execStageInsert (f : HostFrame) (s : State) : Result :=
  .next (hostCommand .stageInsert f (stage (.insert f.params)) s)

/-- STAGE_REMOVE: the 2 bytes are the handle of the target (R97). -/
def execStageRemove (f : HostFrame) (s : State) : Result :=
  .next (hostCommand .stageRemove f (stage (.remove (halfAt f.params 0))) s)

/-- STAGE_AMEND: 2 bytes of handle and 20 bytes of action image (R97). -/
def execStageAmend (f : HostFrame) (s : State) : Result :=
  .next (hostCommand .stageAmend f (stage (.amend (halfAt f.params 0) (f.params.drop 2))) s)

/-- STAGE_RENEW: the 2 bytes are the handle of the target (R97). -/
def execStageRenew (f : HostFrame) (s : State) : Result :=
  .next (hostCommand .stageRenew f (stage (.renew (halfAt f.params 0))) s)

/-- DISCARD: an OPEN transaction closes and its op list is emptied (R98). -/
def runDiscard (_ : List Byte) (s : State) : State × Reply :=
  match s.edu.txn with
  | .opened => ({ s with edu := { s.edu with txn := .closed, ops := [] } }, .ok)
  | .closed => (s, .bare .noTransaction)
  | .building => (s, .bare .busy)

/-- DISCARD (R98). -/
def execDiscard (f : HostFrame) (s : State) : Result :=
  .next (hostCommand .discard f (runDiscard f.params) s)

/-! ### Validation (R99 to R105) -/

/-- The match criteria that R8 compares. -/
structure Criteria where
  value   : Ident
  mask    : Ident
  kind    : KindCriterion
  sources : SegSet
deriving DecidableEq, Repr

/-- The criteria of a definition: the identifier value under the mask, the mask, the kind criterion
and the source set (R8). -/
def Definition.criteria (d : Definition) : Criteria :=
  ⟨d.identValue &&& d.identMask, d.identMask, d.kind, d.sources⟩

/-- The running values of validation (R100). -/
structure Running where
  removed  : List SlotNo
  criteria : List Criteria
  inserts  : Nat
deriving DecidableEq, Repr

/-- The criteria are those of a LIVE entry outside the removed set or of an earlier INSERT (R102). -/
def isDuplicate (s : State) (run : Running) (c : Criteria) : Bool :=
  run.criteria.contains c ||
    (liveEntries s).any (fun x => !run.removed.contains x.1 && x.2.entry.definition.criteria == c)

/-- The tests of an INSERT: FIELD, DUPLICATE, NO_SLOTS, SERIAL_EXHAUSTED (R100 to R105). -/
def validateInsert (s : State) (run : Running) (image : List Byte) : Option (CommitReason × Nat) :=
  match definitionFailure image with
  | some n => some (.field, n)
  | none =>
    if isDuplicate s run (Definition.ofImage image).criteria then some (.duplicate, 0)
    else if freeCount s < run.inserts + 1 then some (.noSlots, 0)
    else if s.rtb.exhausted = true ∨ 2 ^ 32 ≤ s.rtb.nextSerial.toNat + run.inserts then
      some (.serialExhausted, 0)
    else none

/-- The tests of a target: NOT_LIVE, DOUBLE_TARGET (R104). -/
def validateTarget (s : State) (run : Running) (handle : Half) : Option (CommitReason × Nat) :=
  match s.namedLive handle with
  | none => some (.notLive, 0)
  | some i => if run.removed.contains i then some (.doubleTarget, 0) else none

/-- The reason and field number for which an op fails validation, if it does (R100). -/
def validateOp (s : State) (run : Running) : Op → Option (CommitReason × Nat)
  | .insert image => validateInsert s run image
  | .remove handle => validateTarget s run handle
  | .renew handle => validateTarget s run handle
  | .amend handle image =>
    match validateTarget s run handle with
    | some failure => some failure
    | none => (actionFailure image).map (fun n => (.field, n))

/-- The running values after an op (R100). -/
def Running.after (s : State) (run : Running) : Op → Running
  | .insert image =>
    { run with
      criteria := (Definition.ofImage image).criteria :: run.criteria
      inserts := run.inserts + 1 }
  | .remove handle =>
    (match s.namedLive handle with
      | some i => { run with removed := i :: run.removed }
      | none => run)
  | .amend _ _ => run
  | .renew _ => run

/-- The first op that fails, from op index n on: its index, reason and field number (R99). -/
def validateFrom (s : State) : Nat → Running → List Op → Option (Nat × CommitReason × Nat)
  | _, _, [] => none
  | n, run, op :: rest =>
    match validateOp s run op with
    | some (reason, field) => some (n, reason, field)
    | none => validateFrom s (n + 1) (run.after s op) rest

/-- The failure of an op list: EMPTY for a list with no ops, or the first op that fails (R99, R100). -/
def validate (s : State) : Option (Nat × CommitReason × Nat) :=
  match s.edu.ops with
  | [] => some (0, .empty, 0)
  | op :: rest => validateFrom s 0 ⟨[], [], 0⟩ (op :: rest)

/-- COMMIT in OPEN: REJECTED with the failing op's index, reason and field number, or ACCEPTED with
the transaction BUILDING (R99, R116). -/
def runCommit (_ : List Byte) (s : State) : State × Reply :=
  match s.edu.txn with
  | .opened =>
    (match validate s with
      | some (n, reason, field) =>
        ({ s with edu := { s.edu with
            result := ⟨.rejected, n, reason, field, s.rtb.generation, []⟩ } },
          ⟨.rejected, [countByte n, reason.code, countByte field]⟩)
      | none =>
        ({ s with edu := { s.edu with
            txn := .building
            result := ⟨.building, 0, .noReason, 0, s.rtb.generation, []⟩ } }, .bare .accepted))
  | .closed => (s, .bare .noTransaction)
  | .building => (s, .bare .busy)

/-- COMMIT (R99). -/
def execCommit (f : HostFrame) (s : State) : Result := .next (hostCommand .commit f (runCommit f.params) s)

/-! ### Cutover (R108 to R114) -/

/-- The handle an op names. -/
def Op.target : Op → Option Half
  | .insert _ => none
  | .remove handle => some handle
  | .amend handle _ => some handle
  | .renew handle => some handle

/-- A REMOVE, AMEND or RENEW whose handle no longer names a LIVE entry (R108). -/
def targetGone (s : State) (op : Op) : Bool :=
  match op.target with
  | some handle => (s.namedLive handle).isNone
  | none => false

/-- The entry an INSERT writes at a tick (R110). -/
def newEntry (s : State) (d : Definition) : LiveEntry where
  entry    := ⟨d, s.rtb.nextSerial, 0#16, s.ctu.now⟩
  window   := .opened
  deadline := d.action.deadlineFrom s.ctu.now
  ticket   := none

/-- The insertion serial counter after an INSERT: it holds at 4,294,967,295 with the exhausted
indication set (R18). -/
def RouteTable.takeSerial (t : RouteTable) : RouteTable :=
  if t.nextSerial = 0xFFFFFFFF#32 then { t with exhausted := true }
  else { t with nextSerial := t.nextSerial + 1#32 }

/-- An INSERT at cutover: the lowest-numbered FREE slot takes the new entry, and its handle is
reported (R110). Validation counted the FREE slots (R103). -/
def applyInsert (image : List Byte) (s : State) : State × List Handle :=
  match lowestFree s with
  | some i =>
    let s1 := s.setBody i (.live (newEntry s (.ofImage image)))
    ({ s1 with rtb := s1.rtb.takeSerial }, [s.handleOf i])
  | none => (s, [])

/-- A LIVE entry under an amendment at a tick: the action fields replaced, the window opened when the
pace interval changes, and the deadline restarted (R112). -/
def LiveEntry.amended (now : Tick) (a : Action) (l : LiveEntry) : LiveEntry :=
  let l1 := if a.paceInterval = l.entry.action.paceInterval then l else l.openAt now
  { l1 with
    entry := { l1.entry with definition := { l1.entry.definition with action := a } }
    deadline := a.deadlineFrom now }

/-- An AMEND at cutover: the PENDING ticket of the entry is withdrawn with reason AMENDED, and the
entry is amended (R112). -/
def applyAmend (i : SlotNo) (a : Action) (s : State) : State :=
  let s1 := withdrawOf .amended i s
  match (s1.slot i).body with
  | .live l => s1.setBody i (.live (l.amended s.ctu.now a))
  | _ => s1

/-- A RENEW at cutover: the deadline restarts from the cutover tick (R113). -/
def applyRenew (i : SlotNo) (s : State) : State :=
  match (s.slot i).body with
  | .live l => s.setBody i (.live { l with deadline := l.entry.action.deadlineFrom s.ctu.now })
  | _ => s

/-- One op applied at cutover, with the handle of an INSERT (R109 to R113). -/
def applyOp (op : Op) (s : State) : State × List Handle :=
  match op with
  | .insert image => applyInsert image s
  | .remove handle =>
    (match s.namedLive handle with
      | some i => (retire .removed i s, [])
      | none => (s, []))
  | .amend handle image =>
    (match s.namedLive handle with
      | some i => (applyAmend i (.ofImage image) s, [])
      | none => (s, []))
  | .renew handle =>
    (match s.namedLive handle with
      | some i => (applyRenew i s, [])
      | none => (s, []))

/-- The ops applied in op index order, with the handles of the INSERTs in that order (R109). -/
def applyOps : List Op → State → State × List Handle
  | [], s => (s, [])
  | op :: rest, s =>
    let first := applyOp op s
    let others := applyOps rest first.1
    (others.1, first.2 ++ others.2)

/-- A cutover whose targets are all LIVE: the ops, the generation, the record, the transaction and
COMMIT_DONE (R109). -/
def cutoverDone (s : State) : State :=
  let applied := applyOps s.edu.ops s
  let t := applied.1
  raise .commitDone
    { t with
      rtb := { t.rtb with generation := t.rtb.generation + 1#16 }
      edu := { txn := .closed, ops := [],
               result := ⟨.done, 0, .noReason, 0, t.rtb.generation + 1#16, applied.2⟩ } }

/-- A cutover that fails its retired-target check at an op index (R108). -/
def cutoverFailed (n : Nat) (s : State) : State :=
  raise .commitFailed
    { s with edu := { s.edu with
        txn := .opened
        result := ⟨.failed, n, .targetRetired, 0, s.rtb.generation, []⟩ } }

/-- CUTOVER: the build completes; the retired-target check fails at the first op whose handle fails,
or the ops are applied (R108, R109). Taken in BUILDING. -/
def execCutover (s : State) : Result :=
  match s.edu.txn with
  | .building =>
    (match s.edu.ops.findIdx? (targetGone s) with
      | some n => .next (cutoverFailed n s)
      | none => .next (cutoverDone s))
  | .closed => .next s
  | .opened => .next s

/-! ### COMMIT_RESULT (R117, R194) -/

/-- The bytes of the commit result record (R194, R195). -/
def CommitRecord.bytes (r : CommitRecord) : List Byte :=
  [r.status.code, countByte r.opIndex, r.reason.code, countByte r.fieldNo] ++ be16 r.generation
    ++ [countByte r.handles.length] ++ r.handles.flatMap (fun h => be16 h.word)

/-- COMMIT_RESULT (R117). -/
def runCommitResult (_ : List Byte) (s : State) : State × Reply := (s, ⟨.ok, s.edu.result.bytes⟩)

/-- COMMIT_RESULT (R117). -/
def execCommitResult (f : HostFrame) (s : State) : Result :=
  .next (hostCommand .commitResult f (runCommitResult f.params) s)

end Sys2Proof.Machine
end

