-- ==== Sys2Proof/Machine/Events.lean ====
section
/-!
DEFINITION. The event commands: SET_EVENT_LEVELS, READ_EVENTS and CLEAR_EVENTS (chapter 9).
-/

namespace Sys2Proof.Machine

/-- A set of kinds names no kind beyond the eleven: bits 11 to 15 are 0 (R179, R182, R184). -/
def kindSetOk (set : Half) : Bool := set &&& 0xF800#16 == 0#16

/-- The levels with one level given to every kind of a set (R182). -/
def setLevels (set : Half) (level : EventLevel) (levels : Vector EventLevel 11) : Vector EventLevel 11 :=
  Vector.ofFn (fun k : Fin 11 => if set.getLsbD k.val then level else levels[k.val])

/-- SET_EVENT_LEVELS: every kind of the set takes the level (R182). -/
def runSetEventLevels (params : List Byte) (s : State) : State × Reply :=
  match kindSetOk (halfAt params 0), EventLevel.ofCode (byteAt params 2) with
  | true, some level =>
    ({ s with evu := { s.evu with levels := setLevels (halfAt params 0) level s.evu.levels } }, .ok)
  | _, _ => (s, .bare .badParam)

/-- SET_EVENT_LEVELS (R182). -/
def execSetEventLevels (f : HostFrame) (s : State) : Result :=
  .next (hostCommand .setEventLevels f (runSetEventLevels f.params) s)

/-- The pending set and the two port sets, as READ_EVENTS and CLEAR_EVENTS report them (R183, R184). -/
def pendingReport (e : EventUnit) : List Byte :=
  be16 (e.flags.setWidth 16) ++ [e.overrunPorts, e.linkErrorPorts]

/-- READ_EVENTS: the pending set, the port sets, the reset cause and the levels (R183). -/
def runReadEvents (_ : List Byte) (s : State) : State × Reply :=
  (s, ⟨.ok, pendingReport s.evu ++ [s.ctu.cause.code] ++ s.evu.levels.toList.map EventLevel.code⟩)

/-- READ_EVENTS (R183). -/
def execReadEvents (f : HostFrame) (s : State) : Result :=
  .next (hostCommand .readEvents f (runReadEvents f.params) s)

/-- The event unit with the kinds of a set cleared: their flags, and the port sets of PORT_OVERRUN and
LINK_ERROR where they are in the set (R184). -/
def EventUnit.cleared (set : Half) (e : EventUnit) : EventUnit :=
  { e with
    flags := e.flags &&& ~~~(set.setWidth 11)
    overrunPorts := if set.getLsbD EventKind.portOverrun.number.val then 0#8 else e.overrunPorts
    linkErrorPorts := if set.getLsbD EventKind.linkError.number.val then 0#8 else e.linkErrorPorts }

/-- CLEAR_EVENTS: the report as it stands before the clear, and the clear (R184). -/
def runClearEvents (params : List Byte) (s : State) : State × Reply :=
  if kindSetOk (halfAt params 0) then
    ({ s with evu := s.evu.cleared (halfAt params 0) }, ⟨.ok, pendingReport s.evu⟩)
  else (s, .bare .badParam)

/-- CLEAR_EVENTS (R184). -/
def execClearEvents (f : HostFrame) (s : State) : Result :=
  .next (hostCommand .clearEvents f (runClearEvents f.params) s)

end Sys2Proof.Machine
end

