-- ==== Sys2Proof/Machine/HostPort.lean ====
section
/-!
DEFINITION. The SPI family: SPI_TRANSACTION_OPEN, FRAME_ERROR, BAD_COMMAND, NOP and IDENTIFY
(chapter 7).
-/

namespace Sys2Proof.Machine

/-- What MISO shifts out in a transaction: the status word, the held response and the check byte over
both (R143, R147). 0xFF follows for as long as CS# stays low. -/
def misoBytes (s : State) : List Byte := withCheck (be16 (statusWord s) ++ s.hpt.response.bytes)

/-- The byte MISO shifts out at a position of the transaction in progress (R143). -/
def misoAt (s : State) (k : Nat) : Byte := s.hpt.miso.getD k 0xFF#8

/-- The level of MISO at a bit of the transaction in progress: most significant bit first, and none, high
impedance, while no transaction is in progress (R141, R150). -/
def misoPin (s : State) (k : Nat) : Option Bool :=
  match s.hpt.phase with
  | .selected => (spiBits (misoAt s (k / 8)))[k % 8]?
  | .idle => none
  | .ignored => none

/-- SPI_TRANSACTION_OPEN: CS# falls. The status word is captured, and the status word and the held
response begin to shift out (R141, R149). A transaction that begins while the device is held in reset
is ignored up to its CS# rise (R150). Taken while CS# is high. -/
def execSpiTransactionOpen (s : State) : Result :=
  match s.hpt.phase with
  | .idle =>
    if held s then .next { s with hpt := { s.hpt with phase := .ignored, miso := [] } }
    else .next { s with hpt := { s.hpt with phase := .selected, miso := misoBytes s } }
  | .selected => .next s
  | .ignored => .next s

/-- FRAME_ERROR: CS# rises after bytes that are no complete, well-formed frame: the response is
FRAME_ERROR with the first byte as its sequence (0x00 where there is none), and HOST_FRAME_ERROR is
raised (R145). Bytes that are a complete frame are another row's. -/
def execFrameError (mosi : List Byte) (s : State) : Result :=
  if spiUnseen s then .next (releaseSpi s)
  else if frameComplete mosi then .next s
  else .next (closeSpi (byteAt mosi 0) (.bare .frameError) (raise .hostFrameError s))

/-- BAD_COMMAND: a complete frame with a good check carries a code that is no command's (R145, R194).
A frame with a command's code is another row's. -/
def execBadCommand (code : Byte) (f : HostFrame) (s : State) : Result :=
  match hostCmdOf code with
  | some _ => .next s
  | none => .next (closeFrame code f (closeSpi f.seq (.bare .badCommand)) s)

/-- NOP: OK with no data in every device state (R151). -/
def runNop (_ : List Byte) (s : State) : State × Reply := (s, .ok)

/-- NOP (R151). -/
def execNop (f : HostFrame) (s : State) : Result := .next (hostCommand .nop f (runNop f.params) s)

/-- IDENTIFY: the 10 fixed bytes of the part (R152). -/
def runIdentify (_ : List Byte) (s : State) : State × Reply := (s, ⟨.ok, Config.identifyData⟩)

/-- IDENTIFY (R152). -/
def execIdentify (f : HostFrame) (s : State) : Result :=
  .next (hostCommand .identify f (runIdentify f.params) s)

end Sys2Proof.Machine
end

