-- ==== Sys2Proof/Machine/Lookup.lean ====
section
/-!
DEFINITION. The lookup engine: arbitration, the gate, the search, the decision and the lookup event
(chapter 2), with the creation and supersede of tickets (R57, R58).
-/

namespace Sys2Proof.Machine

/-! ### Arbitration (R26, R27) -/

/-- A LOOKUP as the engine evaluates it: its source segment and the three values it carries (R29). -/
structure Query where
  source : PortNo
  ident  : Ident
  kind   : Byte
  length : Half
deriving DecidableEq, Repr

/-- The LOOKUP at the head of an inbound queue. -/
def Port.headLookup (q : Port) : Option (Byte × Ident × Byte × Half) :=
  match q.inbound with
  | .lookup tag ident kind length :: _ => some (tag, ident, kind, length)
  | _ => none

/-- A port is eligible: it is OPEN, its inbound head is a LOOKUP, and its outbound queue holds fewer
than 8 answers (R26). -/
def eligible (s : State) (p : PortNo) : Bool := (s.port p).ready && (s.port p).headLookup.isSome

/-- The ports in rising number from the pointer, wrapping from QP7 to QP0 (R27). -/
def searchOrder (pointer : PortNo) : List PortNo := (List.finRange 8).map (fun k => pointer + k)

/-- The port the arbiter grants: the first eligible one from the pointer (R27). -/
def granted (s : State) : Option PortNo := (searchOrder s.pointer).find? (fun p => eligible s p)

/-! ### Form, search and decision (R31 to R43) -/

/-- The form check of a LOOKUP: the kind is DATA or POLL and the length is at most 2047 (R31). -/
def Query.wellFormed (q : Query) : Bool :=
  (q.kind == 1#8 || q.kind == 2#8) && decide (q.length.toNat ≤ Config.maxLength)

/-- A LIVE entry matches a lookup (R33). -/
def matchesQuery (s : State) (q : Query) (l : LiveEntry) : Bool :=
  let d := l.entry.definition
  !dormant s l.entry
    && q.ident &&& d.identMask == d.identValue &&& d.identMask
    && (d.kind == .any || d.kind.code == q.kind)
    && SegSet.has d.sources q.source

/-- The matched entry: the LIVE, non-dormant, matching entry with the smallest order key (R34). -/
def search (s : State) (q : Query) : Option (SlotNo × LiveEntry) :=
  leastKey ((liveEntries s).filter (fun x => matchesQuery s q x.2))

/-- What the matched entry decides. Each carries the destinations it computed (none before R39). -/
inductive Verdict where
  | drop (reason : DropReason) (dest : SegSet)
  | route (dest : SegSet) (paced : Bool)
  | supersede (record : RecNo) (dest : SegSet)
  | create (record : RecNo) (dest : SegSet)
deriving DecidableEq, Repr

/-- The record of the PENDING ticket an entry owns (R41). -/
def ownedPending (s : State) (l : LiveEntry) : Option RecNo :=
  (l.ticket.map (fun t => t.number)).filter (fun r => (s.record r).body.isPending)

/-- The entry owns an OFFERED ticket (R41). -/
def ownsOffered (s : State) (l : LiveEntry) : Bool :=
  match l.ticket with
  | some t => (s.record t.number).body.isOffered
  | none => false

/-- Case (d): a new ticket from the front of the free order, where the pool and the quota allow one
(R43, R56). -/
def creation (s : State) (q : Query) (dest : SegSet) : Verdict :=
  match s.rlu.freeOrder with
  | r :: _ => if hasQuota s q.source then .create r dest else .drop .noTicket dest
  | [] => .drop .noTicket dest

/-- The pacing decision of a FORWARD entry with at least one destination (R40, R41, R42). -/
def pacing (s : State) (q : Query) (l : LiveEntry) (dest : SegSet) : Verdict :=
  if l.entry.action.paceInterval = 0#16 then .route dest false
  else
    match l.entry.action.paceMode with
    | .drop =>
      (match l.window with
        | .opened => .route dest true
        | .shut => .drop .pace dest)
    | .defer =>
      (match ownedPending s l with
        | some r => if hasQuota s q.source then .supersede r dest else .drop .noTicket dest
        | none =>
          (match l.window with
            | .opened => .route dest true
            | .shut => if ownsOffered s l then .drop .paceHeld dest else creation s q dest))

/-- The decision from the matched entry: admission on the length, the disposition, the destinations,
the pacing decision (R37 to R43). -/
def decideEntry (s : State) (q : Query) (l : LiveEntry) : Verdict :=
  let a := l.entry.action
  if q.length < a.lengthMin ∨ a.lengthMax < q.length then .drop .length 0#8
  else
    match a.disposition with
    | .discard => .drop .rule 0#8
    | .forward =>
      if destinations s q.source a = 0#8 then .drop .noDestination 0#8
      else pacing s q l (destinations s q.source a)

/-! ### The claims of a lookup (R20, R35) -/

/-- The match count increases by one, holding at 65535, and the deadline of an IDLE entry becomes now
plus its lifetime value (R11, R35). -/
def LiveEntry.matched (now : Tick) (l : LiveEntry) : LiveEntry :=
  { l with
    entry := { l.entry with
      matchCount := if l.entry.matchCount = 0xFFFF#16 then 0xFFFF#16 else l.entry.matchCount + 1#16 }
    deadline := if l.entry.action.lifetimeKind = .idle
      then some (now + l.entry.action.lifetimeValue.setWidth 32) else l.deadline }

/-- The identifier a ROUTE sends out: the rewrite identifier, or the lookup's own (R47). -/
def identOut (l : LiveEntry) (q : Query) : Ident := l.entry.action.rewrite.getD q.ident

/-- The low 8 bits of the generation (R17, R47). -/
def generationByte (s : State) : Byte := s.rtb.generation.setWidth 8

/-- The creation of a ticket (R57): the record at the front of the free order becomes PENDING under
its next serial and joins the release list, and the entry's ticket field takes the new id. -/
def createTicket (r : RecNo) (h : Held) (s : State) : State :=
  let s1 := s.setRecord r ⟨(s.record r).serial + 1#4, .pending h⟩
  let s2 := { s1 with rlu := { s1.rlu with
    freeOrder := s1.rlu.freeOrder.tail
    releaseList := joinReleaseList s.ctu.now s1.dueOf r s1.rlu.releaseList } }
  setTicketField h.handle.slot (s.nextTicketId r) s2

/-- The supersede of a PENDING ticket (R58): a SUPERSEDED notice to the old owner, the next serial,
the new owner, tag and identifier, and the new id in the entry's ticket field. -/
def supersedeTicket (r : RecNo) (h : Held) (owner : PortNo) (tag : Byte) (ident : Ident) (s : State) :
    State :=
  let s1 := place h.owner (.superseded (s.ticketId r) h.tag) s
  let s2 := s1.setRecord r
    ⟨(s.record r).serial + 1#4, .pending { h with owner := owner, tag := tag, ident := ident }⟩
  setTicketField h.handle.slot (s.nextTicketId r) s2

/-- A SINGLE entry answered ROUTE, or DROP reason RULE, is spent: the retirement procedure runs with
cause SPENT and SINGLE_SPENT is raised (R45). -/
def spendNow (i : SlotNo) (s : State) : State := raise .singleSpent (retire .spent i s)

/-- A SINGLE entry answered DEFER goes to RETIRING with cause SPENT and its ticket, its deadline
absent, and SINGLE_SPENT is raised (R46). -/
def spendDeferred (i : SlotNo) (s : State) : State :=
  match (s.slot i).body with
  | .live l =>
    (match l.ticket with
      | some t => raise .singleSpent (s.setBody i (.retiring l.entry .spent t))
      | none => s)
  | _ => s

/-- The claims on the matched entry and the answer, for a lookup decided by a verdict (R20, R29, R35,
R40 to R49). `l` is the entry as it was matched, in slot `i`. -/
def applyVerdict (q : Query) (tag : Byte) (i : SlotNo) (l : LiveEntry) (v : Verdict) (s : State) :
    State :=
  let a := l.entry.action
  let counted := l.matched s.ctu.now
  let s1 := s.setBody i (.live counted)
  match v with
  | .drop reason _ =>
    let s2 := if reason = .noTicket then raise .ticketRefused s1 else s1
    let s3 := if reason = .rule ∧ a.flags.single = true then spendNow i s2 else s2
    place q.source (.drop tag reason a.label) s3
  | .route dest paced =>
    let s2 := if paced then
        s1.setBody i (.live (counted.shutUntil (s.ctu.now + a.paceInterval.setWidth 32)))
      else s1
    let s3 := if a.flags.single then spendNow i s2 else s2
    place q.source (.route tag a.label dest (identOut l q) (generationByte s)) s3
  | .create r _ =>
    let h : Held := ⟨s.handleOf i, q.source, tag, q.ident, l.entry.windowOpen⟩
    let s2 := createTicket r h s1
    let s3 := if a.flags.single then spendDeferred i s2 else s2
    place q.source (.defer tag (s.nextTicketId r) l.entry.windowOpen (generationByte s)) s3
  | .supersede r _ =>
    (match (s.record r).body with
      | .pending h =>
        let s2 := supersedeTicket r h q.source tag q.ident s1
        let s3 := if a.flags.single then spendDeferred i s2 else s2
        place q.source (.defer tag (s.nextTicketId r) h.due (generationByte s)) s3
      | _ => s1)

/-- The evaluation of a granted LOOKUP and the placing of its answer (R31 to R34, R48). -/
def answerLookup (q : Query) (tag : Byte) (s : State) : State :=
  if !q.wellFormed then place q.source (.refuse tag .malformed) s
  else if s.ctu.device = .active ∨ s.ctu.device = .fallback then
    (match search s q with
      | some (i, l) => applyVerdict q tag i l (decideEntry s q l) s
      | none => place q.source (.noMatch tag) s)
  else place q.source (.refuse tag .notActive) s

/-- LOOKUP_EVENT: the arbiter grants the first eligible port and the pointer moves past it; the LOOKUP
leaves the inbound queue, is evaluated and is answered (R27, R29). Where no port is eligible there is
no grant. -/
def execLookupEvent (s : State) : Result :=
  match granted s with
  | some p =>
    (match (s.port p).headLookup with
      | some (tag, ident, kind, length) =>
        .next (answerLookup ⟨p, ident, kind, length⟩ tag (popInbound p { s with pointer := p + 1 }))
      | none => .next s)
  | none => .next s

end Sys2Proof.Machine
end

