-- ==== Sys2Proof/Machine/Ports.lean ====
section
/-!
DEFINITION. The port commands: PORT_OPEN, PORT_CLOSE and READ_PORT (R120, R121, R160).
-/

namespace Sys2Proof.Machine

/-- The port number in a parameter byte, where it is 7 or less (R196). -/
def portParam (b : Byte) : Option PortNo := if h : b.toNat < 8 then some ⟨b.toNat, h⟩ else none

/-- PORT_OPEN: a CLOSED port becomes OPEN with the quota given, empty queues, a clear mark, its
receiver in HUNT, and a PORT_UP placed first (R120, R136). -/
def runPortOpen (params : List Byte) (s : State) : State × Reply :=
  match portParam (byteAt params 0) with
  | none => (s, .bare .badParam)
  | some p =>
    if Config.maxQuota < (byteAt params 1).toNat then (s, .bare .badParam)
    else if (s.port p).state = .opened then (s, .bare .wrongState)
    else
      (s.setPort p { s.port p with
        state := .opened
        quota := (byteAt params 1).toNat
        inbound := []
        outbound := [⟨false, .portUp s.ctu.device s.rtb.generation⟩]
        overrun := false
        receiver := .hunt }, .ok)

/-- PORT_OPEN (R120). -/
def execPortOpen (f : HostFrame) (s : State) : Result :=
  .next (hostCommand .portOpen f (runPortOpen f.params) s)

/-- The records of the tickets a port owns, in rising number (R71). -/
def recordsOwned (s : State) (p : PortNo) : List RecNo :=
  (List.finRange 96).filter (fun r => (s.record r).body.ownedBy p)

/-- The flush of a closing port: its queues are emptied, a message in transmission is abandoned, its
mark is cleared, and it is CLOSED (R121, R135). -/
def closePort (p : PortNo) (s : State) : State :=
  s.setPort p { s.port p with
    state := .closed
    inbound := []
    outbound := []
    overrun := false
    line := (s.port p).flushedLine }

/-- PORT_CLOSE: every ticket the port owns completes silently, in rising record number, and the port
is flushed and CLOSED (R71, R121). -/
def runPortClose (params : List Byte) (s : State) : State × Reply :=
  match portParam (byteAt params 0) with
  | none => (s, .bare .badParam)
  | some p =>
    if (s.port p).state = .closed then (s, .bare .wrongState)
    else (closePort p (completeAll (recordsOwned s p) s), .ok)

/-- PORT_CLOSE (R121). -/
def execPortClose (f : HostFrame) (s : State) : Result :=
  .next (hostCommand .portClose f (runPortClose f.params) s)

/-- The 8 data bytes of READ_PORT (R160). -/
def portReport (s : State) (p : PortNo) : List Byte :=
  let q := s.port p
  [q.state.code, countByte q.quota, countByte q.inbound.length, countByte q.answers,
    countByte q.notices, countByte (ticketsOwned s p), countByte (load s p),
    if q.overrun then 1#8 else 0#8]

/-- READ_PORT: one port's state, quota, counts, load and mark (R160). -/
def runReadPort (params : List Byte) (s : State) : State × Reply :=
  match portParam (byteAt params 0) with
  | none => (s, .bare .badParam)
  | some p => (s, ⟨.ok, portReport s p⟩)

/-- READ_PORT (R160). -/
def execReadPort (f : HostFrame) (s : State) : Result :=
  .next (hostCommand .readPort f (runReadPort f.params) s)

end Sys2Proof.Machine
end

