-- ==== Sys2Proof/Machine/Inspect.lean ====
section
/-!
DEFINITION. The inspection commands: TABLE_SUMMARY, READ_ENTRY, WALK_FIRST, WALK_NEXT, LIST_RETIRED,
COLLECT, PROBE and READ_TICKET (chapters 4 and 7).
-/

namespace Sys2Proof.Machine

/-! ### TABLE_SUMMARY (R153) -/

/-- The 21 data bytes of TABLE_SUMMARY (R153). -/
def summaryBytes (s : State) : List Byte :=
  be16 (BitVec.ofNat 16 (s.rtb.count SlotBody.isFree))
    ++ be16 (BitVec.ofNat 16 (s.rtb.count SlotBody.isLive))
    ++ be16 (BitVec.ofNat 16 (s.rtb.count SlotBody.isRetiring))
    ++ be16 (BitVec.ofNat 16 (s.rtb.count SlotBody.isRetired))
    ++ be16 s.rtb.generation
    ++ be32 (if s.rtb.exhausted then 0xFFFFFFFF#32 else s.rtb.nextSerial)
    ++ [countByte (s.rlu.count TicketBody.isPending), countByte (s.rlu.count TicketBody.isOffered),
        countByte (s.rlu.count TicketBody.isFree)]
    ++ be32 s.ctu.now

/-- TABLE_SUMMARY (R153). -/
def runTableSummary (_ : List Byte) (s : State) : State × Reply := (s, ⟨.ok, summaryBytes s⟩)

/-- TABLE_SUMMARY (R153). -/
def execTableSummary (f : HostFrame) (s : State) : Result :=
  .next (hostCommand .tableSummary f (runTableSummary f.params) s)

/-! ### READ_ENTRY (R154, R189) -/

/-- A slot number in a two-byte parameter, where it is 511 or less (R196). -/
def slotParam (w : Half) : Option SlotNo := if h : w.toNat < 512 then some ⟨w.toNat, h⟩ else none

/-- The retire cause code of a slot, 0 where it is absent (R10). -/
def SlotBody.causeCode : SlotBody → Byte
  | .retiring _ cause _ => cause.code
  | .retired _ cause => cause.code
  | _ => 0#8

/-- The deadline of a slot, 0 where it is absent (R10). -/
def SlotBody.deadlineOr0 : SlotBody → Tick
  | .live l => l.deadline.getD 0#32
  | _ => 0#32

/-- The ticket id of a slot, 0xFFFF where it is absent (R10). -/
def SlotBody.ticketWord (b : SlotBody) : Half :=
  match b.ticket? with
  | some t => t.word
  | none => Config.noName

/-- The 20 bytes of the runtime image of an entry in a slot (R189). -/
def runtimeImage (h : Handle) (b : SlotBody) (e : Entry) : List Byte :=
  be16 h.word ++ [b.code, b.causeCode] ++ be16 e.matchCount ++ be32 e.serial ++ be32 e.windowOpen
    ++ be32 b.deadlineOr0 ++ be16 b.ticketWord

/-- The data of READ_ENTRY: state and era, and the two images unless the slot is FREE (R154). -/
def entryReport (s : State) (i : SlotNo) : List Byte :=
  [(s.slot i).body.code, (s.slot i).era.setWidth 8] ++
    (match (s.slot i).body.entry? with
      | some e => e.definition.image ++ runtimeImage (s.handleOf i) (s.slot i).body e
      | none => [])

/-- READ_ENTRY (R154). -/
def runReadEntry (params : List Byte) (s : State) : State × Reply :=
  match slotParam (halfAt params 0) with
  | none => (s, .bare .badParam)
  | some i => (s, ⟨.ok, entryReport s i⟩)

/-- READ_ENTRY (R154). -/
def execReadEntry (f : HostFrame) (s : State) : Result :=
  .next (hostCommand .readEntry f (runReadEntry f.params) s)

/-! ### The walk (R155 to R157) -/

/-- The 55 data bytes of a walk reply: generation, dormant marker, definition image and runtime image
(R156). -/
def walkReport (s : State) (i : SlotNo) (l : LiveEntry) : List Byte :=
  be16 s.rtb.generation ++ [if dormant s l.entry then 1#8 else 0#8] ++ l.entry.definition.image
    ++ runtimeImage (s.handleOf i) (.live l) l.entry

/-- The state with the walk cursor written (R155). -/
def setCursor (k : Option OrderKey) (s : State) : State := { s with hpt := { s.hpt with cursor := k } }

/-- WALK_FIRST: the LIVE entry with the smallest order key, dormant entries included (R156). -/
def runWalkFirst (_ : List Byte) (s : State) : State × Reply :=
  match leastKey (liveEntries s) with
  | some (i, l) => (setCursor (some l.entry.key) s, ⟨.ok, walkReport s i l⟩)
  | none => (setCursor none s, .bare .endOfList)

/-- WALK_FIRST (R156). -/
def execWalkFirst (f : HostFrame) (s : State) : Result :=
  .next (hostCommand .walkFirst f (runWalkFirst f.params) s)

/-- WALK_NEXT: the LIVE entry with the smallest order key greater than the cursor (R157). -/
def runWalkNext (_ : List Byte) (s : State) : State × Reply :=
  match s.hpt.cursor with
  | none => (s, .bare .wrongState)
  | some k =>
    (match leastKey ((liveEntries s).filter (fun x => k.before x.2.entry.key)) with
      | some (i, l) => (setCursor (some l.entry.key) s, ⟨.ok, walkReport s i l⟩)
      | none => (s, .bare .endOfList))

/-- WALK_NEXT (R157). -/
def execWalkNext (f : HostFrame) (s : State) : Result :=
  .next (hostCommand .walkNext f (runWalkNext f.params) s)

/-! ### LIST_RETIRED and COLLECT (R86, R88) -/

/-- The RETIRED slots at or above a start slot, in rising number, up to eight (R88). -/
def retiredFrom (s : State) (start : SlotNo) : List SlotNo :=
  (((numberedSlots s).filter (fun x => decide (start ≤ x.1) && x.2.body.isRetired)).map (fun x => x.1)).take
    Config.maxListed

/-- The handle, retire cause and final match count of a RETIRED slot (R88). -/
def retiredTriple (s : State) (i : SlotNo) : List Byte :=
  match (s.slot i).body with
  | .retired e cause => be16 (s.handleOf i).word ++ [cause.code] ++ be16 e.matchCount
  | _ => []

/-- LIST_RETIRED (R88). -/
def runListRetired (params : List Byte) (s : State) : State × Reply :=
  match slotParam (halfAt params 0) with
  | none => (s, .bare .badParam)
  | some start =>
    (match retiredFrom s start with
      | [] => (s, .bare .endOfList)
      | i :: rest =>
        (s, ⟨.ok, countByte (i :: rest).length :: (i :: rest).flatMap (retiredTriple s)⟩))

/-- LIST_RETIRED (R88). -/
def execListRetired (f : HostFrame) (s : State) : Result :=
  .next (hostCommand .listRetired f (runListRetired f.params) s)

/-- COLLECT: the slot of the RETIRED entry a handle names enters FREE with its era incremented (R22,
R86). -/
def runCollect (params : List Byte) (s : State) : State × Reply :=
  match s.named (halfAt params 0) with
  | none => (s, .bare .notFound)
  | some i =>
    if (s.slot i).body.isRetired then
      (s.setSlot i ⟨(s.slot i).era + 1#6, .free⟩, .ok)
    else (s, .bare .notFound)

/-- COLLECT (R86). -/
def execCollect (f : HostFrame) (s : State) : Result :=
  .next (hostCommand .collect f (runCollect f.params) s)

/-! ### PROBE (R50, R161) -/

/-- The items of a PROBE result after the device state (R161). -/
structure ProbeResult where
  answer       : Byte
  reason       : Byte
  handle       : Half
  label        : Half
  destinations : SegSet
  identOut     : Ident
  ticket       : Half
  due          : Tick
deriving DecidableEq, Repr

/-- The would-be answer of the matched entry (R50, R161). -/
def probeVerdict (s : State) (q : Query) (i : SlotNo) (l : LiveEntry) : ProbeResult :=
  let handle := (s.handleOf i).word
  let label := l.entry.action.label
  match decideEntry s q l with
  | .drop reason dest => ⟨0x22#8, reason.code, handle, label, dest, 0#24, Config.noName, 0#32⟩
  | .route dest _ => ⟨0x20#8, 0#8, handle, label, dest, identOut l q, Config.noName, 0#32⟩
  | .create _ dest => ⟨0x21#8, 0#8, handle, label, dest, identOut l q, Config.noName, l.entry.windowOpen⟩
  | .supersede r dest =>
    ⟨0x21#8, 0#8, handle, label, dest, identOut l q, (s.nextTicketId r).word, s.dueOf r⟩

/-- The evaluation of a PROBE: as a LOOKUP's, without the device-state gate (R50). -/
def probeResult (s : State) (q : Query) : ProbeResult :=
  if !q.wellFormed then
    ⟨0x24#8, RefuseReason.malformed.code, Config.noName, 0#16, 0#8, 0#24, Config.noName, 0#32⟩
  else
    match search s q with
    | some (i, l) => probeVerdict s q i l
    | none => ⟨0x23#8, 0#8, Config.noName, 0#16, 0#8, 0#24, Config.noName, 0#32⟩

/-- The 19 data bytes of PROBE (R161). -/
def probeBytes (s : State) (r : ProbeResult) : List Byte :=
  [s.ctu.device.code, r.answer, r.reason] ++ be16 r.handle ++ be16 r.label ++ [r.destinations]
    ++ be24 r.identOut ++ be16 r.ticket ++ be32 r.due ++ be16 s.rtb.generation

/-- PROBE (R161). -/
def runProbe (params : List Byte) (s : State) : State × Reply :=
  match portParam (byteAt params 0) with
  | none => (s, .bare .badParam)
  | some p =>
    (s, ⟨.ok, probeBytes s (probeResult s ⟨p, identAt params 1, byteAt params 4, halfAt params 5⟩)⟩)

/-- PROBE (R161). -/
def execProbe (f : HostFrame) (s : State) : Result := .next (hostCommand .probe f (runProbe f.params) s)

/-! ### READ_TICKET (R159) -/

/-- A record number in a parameter byte, where it is 95 or less (R196). -/
def recordParam (b : Byte) : Option RecNo := if h : b.toNat < 96 then some ⟨b.toNat, h⟩ else none

/-- The items of READ_TICKET from the entry handle on, absent ones as R159 gives. -/
def ticketFields : TicketBody → List Byte
  | .free => be16 Config.noName ++ [0xFF#8, 0#8] ++ be24 0#24 ++ be32 0#32 ++ [0#8] ++ be32 0#32
  | .pending h =>
    be16 h.handle.word ++ [countByte h.owner.val, h.tag] ++ be24 h.ident ++ be32 h.due ++ [0#8]
      ++ be32 0#32
  | .offered h cancelRequested deadline =>
    be16 h.handle.word ++ [countByte h.owner.val, h.tag] ++ be24 h.ident ++ be32 h.due
      ++ [(if cancelRequested then 1#8 else 0#8) ||| (if deadline.isSome then 2#8 else 0#8)]
      ++ be32 (deadline.getD 0#32)

/-- The 19 data bytes of READ_TICKET (R159). -/
def ticketReport (s : State) (r : RecNo) : List Byte :=
  [(s.record r).body.code] ++ be16 (s.ticketId r).word ++ ticketFields (s.record r).body

/-- READ_TICKET (R159). -/
def runReadTicket (params : List Byte) (s : State) : State × Reply :=
  match recordParam (byteAt params 0) with
  | none => (s, .bare .badParam)
  | some r => (s, ⟨.ok, ticketReport s r⟩)

/-- READ_TICKET (R159). -/
def execReadTicket (f : HostFrame) (s : State) : Result :=
  .next (hostCommand .readTicket f (runReadTicket f.params) s)

end Sys2Proof.Machine
end

