-- ==== Sys2Proof/Machine/Link.lean ====
section
/-!
DEFINITION. The link family: FRAME_ARRIVAL, BAD_ESCAPE, HUNT_DELIMITER, the heads ACK, CANCEL and
PING, and LEAVING_THE_LINK (chapters 3 and 6).
-/

namespace Sys2Proof.Machine

/-! ### Arrivals (R123 to R127) -/

/-- A well-formed message at the inbound queue: placed at the tail while the queue holds fewer than 4
messages, and otherwise discarded with the overrun mark set and PORT_OVERRUN raised (R127). -/
def arrive (p : PortNo) (m : InMsg) (s : State) : State :=
  if (s.port p).inbound.length < Config.inboundRoom then
    s.setPort p { s.port p with inbound := (s.port p).inbound ++ [m] }
  else raiseOverrun p (s.setPort p { s.port p with overrun := true })

/-- The message of a frame that passes the arrival checks; a frame counted as too long fails (R126). -/
def arrivedMessage (content : LinkContent) : Option InMsg :=
  if content.tooLong then none else parseInbound content.bytes

/-- FRAME_ARRIVAL: on an OPEN port whose receiver is in FRAME, a frame with content is checked and
either queued or discarded with LINK_ERROR; an empty frame is idle fill (R123, R126, R127). In HUNT
the delimiter puts the receiver in FRAME and the bytes before it are discarded (R123, R125). A CLOSED
port ignores its link. -/
def execFrameArrival (p : PortNo) (content : LinkContent) (s : State) : Result :=
  match (s.port p).state with
  | .closed => .next s
  | .opened =>
    (match (s.port p).receiver with
      | .hunt => .next (s.setPort p { s.port p with receiver := .frame })
      | .frame =>
        if content.bytes.isEmpty then .next s
        else
          (match arrivedMessage content with
            | some m => .next (arrive p m s)
            | none => .next (raiseLinkError p s)))

/-- The byte after an escape byte is neither an escaped content byte nor the delimiter (R123, R125). -/
def badEscapeByte (b : Byte) : Bool :=
  b != Config.delimiter ^^^ Config.escapeMask && b != Config.escape ^^^ Config.escapeMask
    && b != Config.delimiter

/-- BAD_ESCAPE: on an OPEN port in FRAME, an escape byte followed by such a byte sets the receiver to
HUNT and raises LINK_ERROR for the port (R125). -/
def execBadEscape (p : PortNo) (b : Byte) (s : State) : Result :=
  if (s.port p).state = .opened ∧ (s.port p).receiver = .frame ∧ badEscapeByte b = true then
    .next (raiseLinkError p (s.setPort p { s.port p with receiver := .hunt }))
  else .next s

/-- HUNT_DELIMITER: on an OPEN port in HUNT, a delimiter puts the receiver in FRAME (R123). -/
def execHuntDelimiter (p : PortNo) (s : State) : Result :=
  if (s.port p).state = .opened ∧ (s.port p).receiver = .hunt then
    .next (s.setPort p { s.port p with receiver := .frame })
  else .next s

/-! ### Heads (R129) -/

/-- The inbound head of a port that may be taken: the port is OPEN and its outbound queue has room for
an answer (R129). -/
def State.readyHead (s : State) (p : PortNo) : Option InMsg :=
  if (s.port p).ready then (s.port p).inbound.head? else none

/-- The release unit takes an ACK from a port (R62, R63). -/
def takeAck (p : PortNo) (id : Half) (s : State) : State :=
  match s.namedTicket id with
  | none => place p (.stray id .unknown) s
  | some r =>
    if (s.record r).body.ownedBy p then
      (match (s.record r).body with
        | .offered _ _ (some _) => completeTicket r s
        | .offered _ _ none => place p (.stray id .notSent) s
        | .pending _ => place p (.stray id .notSent) s
        | .free => place p (.stray id .unknown) s)
    else place p (.stray id .notOwner) s

/-- The release unit takes a CANCEL from a port (R63, R64, R65). -/
def takeCancel (p : PortNo) (id : Half) (s : State) : State :=
  match s.namedTicket id with
  | none => place p (.stray id .unknown) s
  | some r =>
    if (s.record r).body.ownedBy p then
      (match (s.record r).body with
        | .pending _ => place p (.cancelled id) (completeTicket r s)
        | .offered h _ t =>
          place p (.tooLate id) (s.setRecord r { s.record r with body := .offered h true t })
        | .free => place p (.stray id .unknown) s)
    else place p (.stray id .notOwner) s

/-- ACK: the ACK at the inbound head of a port is taken once there is room (R62, R129). -/
def execAck (p : PortNo) (s : State) : Result :=
  match s.readyHead p with
  | some (.ack id) => .next (takeAck p id (popInbound p s))
  | _ => .next s

/-- CANCEL: the CANCEL at the inbound head of a port is taken once there is room (R64, R129). -/
def execCancel (p : PortNo) (s : State) : Result :=
  match s.readyHead p with
  | some (.cancel id) => .next (takeCancel p id (popInbound p s))
  | _ => .next s

/-- PING: the PING at the inbound head of a port is taken once there is room, and a PONG with its tag,
the device state, the generation and the free ticket count is placed (R129, R131). -/
def execPing (p : PortNo) (s : State) : Result :=
  match s.readyHead p with
  | some (.ping tag) =>
    .next (place p (.pong tag s.ctu.device s.rtb.generation (freeTickets s)) (popInbound p s))
  | _ => .next s

/-! ### Leaving the link (R61, R133) -/

/-- The departure of a RELEASE: the ticket's sent becomes yes and its offer deadline becomes now plus
the offer limit (R61). -/
def markSent (t : TicketId) (s : State) : State :=
  match (s.record t.number).body with
  | .offered h cancelRequested none =>
    if (s.record t.number).serial = t.serial then
      s.setRecord t.number { s.record t.number with
        body := .offered h cancelRequested (some (s.ctu.now + s.ctu.offerLimit.setWidth 32)) }
    else s
  | _ => s

/-- LEAVING_THE_LINK: the head message of an OPEN port's outbound queue has been sent as one frame and
leaves the queue, with its effect on leaving (R133). -/
def execLeavingTheLink (p : PortNo) (s : State) : Result :=
  match (s.port p).state, (s.port p).outbound with
  | .opened, m :: rest =>
    let s1 := s.setPort p { s.port p with outbound := rest, line := .sent (lineFrame m.content) }
    (match m.body with
      | .release t _ _ _ _ => .next (markSent t s1)
      | _ => .next s1)
  | _, _ => .next s

/-! ### What QLn_TX carries (R123, R133, R135, R137, R139) -/

/-- The bytes with which the last frame on a link went out or was ended; a frame that a hard reset cut
off has no end of its own (R133, R135, R139). -/
def LineEnd.bytes : LineEnd → List Byte
  | .quiet => []
  | .sent bytes => bytes
  | .aborted => abortSequence
  | .cutOff => []

/-- The messages a port's transmitter has to send, head first: none on a CLOSED port, and none while
the device is held in reset or in INIT (R133, R135, R139). -/
def toSend (s : State) (p : PortNo) : List OutMsg :=
  if held s = true ∨ s.ctu.device = .init ∨ (s.port p).state = .closed then [] else (s.port p).outbound

/-- The byte at a place of what QLn_TX carries, while no event comes: from the delimiter that opens the
head message's frame on, the frames of the messages to send, and then delimiters as idle fill (R123,
R133). With nothing to send, and so on a CLOSED port, in reset and in INIT, delimiters alone (R135,
R137, R139). How far into the head's frame the link has come is not held (log 10). -/
def txByte (s : State) (p : PortNo) (k : Nat) : Byte :=
  (lineFrames ((toSend s p).map OutMsg.content)).getD k Config.delimiter

end Sys2Proof.Machine
end

