-- ==== Sys2Proof/Machine/Timers.lean ====
section
/-!
DEFINITION. The time family: TIMEBASE_TICK, DEADLINE_EXPIRY, DUE_EXPIRY, OFFER_TIMEOUT, WINDOW_OPENS
and SUPERVISION_EXPIRY (R170, R172).
-/

namespace Sys2Proof.Machine

/-- TIMEBASE_TICK: now increases by one and wraps; the next tick lasts the tick period in force
(R170, R171). The timebase is held through hard reset and INIT. -/
def execTimebaseTick (s : State) : Result :=
  if s.ctu.device = .init then .next s
  else .next { s with ctu := { s.ctu with now := s.ctu.now + 1#32, tickInProgress := s.ctu.tickPeriod } }

/-- The three conditions of an expiry: the entry is LIVE, has a deadline, and the deadline is reached
(R22, R77). -/
def expiryDue (s : State) (i : SlotNo) : Bool :=
  match (s.slot i).body with
  | .live l => (match l.deadline with
      | some t => reached s.ctu.now t
      | none => false)
  | _ => false

/-- DEADLINE_EXPIRY: an expiry that passes its test runs the retirement procedure with cause EXPIRED
and raises ENTRY_EXPIRED; one that fails it does not happen (R22, R78). No expiry runs in INIT. -/
def execDeadlineExpiry (i : SlotNo) (s : State) : Result :=
  if s.ctu.device ≠ .init ∧ expiryDue s i = true then
    .next (raise .entryExpired (retire .expired i s))
  else .next s

/-- The entry's window when its ticket is offered: the window-open tick becomes now plus the pace
interval, and the window of a LIVE entry is SHUT (R21, R60). -/
def shutForOffer (i : SlotNo) (t : Tick) (s : State) : State :=
  match (s.slot i).body with
  | .live l => s.setBody i (.live (l.shutUntil t))
  | .retiring e cause id => s.setBody i (.retiring { e with windowOpen := t } cause id)
  | .free => s
  | .retired _ _ => s

/-- The offer of a ticket (R60): OFFERED, out of the release list, the entry's window written, and a
RELEASE placed for the owner. -/
def offer (r : RecNo) (h : Held) (e : Entry) (dest : SegSet) (s : State) : State :=
  let a := e.action
  let s1 := s.setRecord r { s.record r with body := .offered h false none }
  let s2 := { s1 with rlu := { s1.rlu with releaseList := s1.rlu.releaseList.filter (fun x => x != r) } }
  let s3 := shutForOffer h.handle.slot (s.ctu.now + a.paceInterval.setWidth 32) s2
  place h.owner (.release (s.ticketId r) h.tag a.label dest (a.rewrite.getD h.ident)) s3

/-- The due expiry of a PENDING ticket: it is offered when the release has a destination, and is
withdrawn with reason NO_DESTINATION when it has none (R60). -/
def fallDue (r : RecNo) (h : Held) (s : State) : State :=
  match (s.slot h.handle.slot).body.entry? with
  | some e =>
    if destinations s h.owner e.action = 0#8 then withdraw .noDestination r s
    else offer r h e (destinations s h.owner e.action) s
  | none => s

/-- DUE_EXPIRY: the ticket at the front of the release list falls due once its due tick is reached
(R59). The due timer runs in ACTIVE and FALLBACK (R72). -/
def execDueExpiry (s : State) : Result :=
  if s.ctu.device = .active ∨ s.ctu.device = .fallback then
    (match s.rlu.releaseList with
      | r :: _ =>
        (match (s.record r).body with
          | .pending h => if reached s.ctu.now h.due then .next (fallDue r h s) else .next s
          | _ => .next s)
      | [] => .next s)
  else .next s

/-- The offer deadline of a record is reached (R66). -/
def offerDue (s : State) (r : RecNo) : Bool :=
  match (s.record r).body with
  | .offered _ _ (some t) => reached s.ctu.now t
  | _ => false

/-- OFFER_TIMEOUT: an OFFERED ticket whose offer deadline is reached completes, and OFFER_TIMEOUT is
raised (R66). The offer timer runs in STANDBY, ACTIVE and FALLBACK. -/
def execOfferTimeout (r : RecNo) (s : State) : Result :=
  if s.ctu.device ≠ .init ∧ offerDue s r = true then
    .next (raise .offerTimeout (completeTicket r s))
  else .next s

/-- WINDOW_OPENS: a SHUT window of a LIVE entry whose window-open tick is reached becomes OPEN
(R12). -/
def execWindowOpens (i : SlotNo) (s : State) : Result :=
  match (s.slot i).body with
  | .live l =>
    if l.window = .shut ∧ reached s.ctu.now l.entry.windowOpen = true ∧ s.ctu.device ≠ .init then
      .next (s.setBody i (.live { l with window := .opened }))
    else .next s
  | _ => .next s

/-- The entry that owns a record's ticket has ESSENTIAL. -/
def ticketEssential (s : State) (r : RecNo) : Bool :=
  match (s.record r).body.held? with
  | some h =>
    (match (s.slot h.handle.slot).body.entry? with
      | some e => e.action.flags.essential
      | none => false)
  | none => false

/-- SUPERVISION_EXPIRY: with the timer RUNNING and its expiry tick reached, the device enters
FALLBACK, the timer stops, every PENDING ticket of a non-ESSENTIAL entry is withdrawn in
release-list order, and FALLBACK_ENTERED is raised (R69, R176). -/
def execSupervisionExpiry (s : State) : Result :=
  match s.ctu.timer with
  | some t =>
    if reached s.ctu.now t = true ∧ s.ctu.device = .active then
      .next (raise .fallbackEntered
        (withdrawAll .fallback (s.rlu.releaseList.filter (fun r => !ticketEssential s r))
          { s with ctu := { s.ctu with device := .fallback, timer := none } }))
    else .next s
  | none => .next s

end Sys2Proof.Machine
end

