-- ==== Sys2Proof/Machine/Dispatch.lean ====
section
/-! DEFINITION. The dispatch: one arm per command of the opcode table. -/

namespace Sys2Proof.Machine

-- The effect of a command on everything but the queue of waiting commands.
def exec (i : Instr) (s : State) : Host.Outcome State Fault Refusal :=
  match i with
  | .powerOn resetLow => Sys2Proof.Machine.execPowerOn resetLow s
  | .powerOnHoldEnd => Sys2Proof.Machine.execPowerOnHoldEnd s
  | .hardReset => Sys2Proof.Machine.execHardReset s
  | .resetRelease => Sys2Proof.Machine.execResetRelease s
  | .memoryClearComplete => Sys2Proof.Machine.execMemoryClearComplete s
  | .timebaseTick => Sys2Proof.Machine.execTimebaseTick s
  | .deadlineExpiry slot => Sys2Proof.Machine.execDeadlineExpiry slot s
  | .dueExpiry => Sys2Proof.Machine.execDueExpiry s
  | .offerTimeout record => Sys2Proof.Machine.execOfferTimeout record s
  | .windowOpens slot => Sys2Proof.Machine.execWindowOpens slot s
  | .supervisionExpiry => Sys2Proof.Machine.execSupervisionExpiry s
  | .cutover => Sys2Proof.Machine.execCutover s
  | .frameArrival port content => Sys2Proof.Machine.execFrameArrival port content s
  | .badEscape port byte => Sys2Proof.Machine.execBadEscape port byte s
  | .lookupEvent => Sys2Proof.Machine.execLookupEvent s
  | .ack port => Sys2Proof.Machine.execAck port s
  | .cancel port => Sys2Proof.Machine.execCancel port s
  | .ping port => Sys2Proof.Machine.execPing port s
  | .leavingTheLink port => Sys2Proof.Machine.execLeavingTheLink port s
  | .spiTransactionOpen => Sys2Proof.Machine.execSpiTransactionOpen s
  | .frameError mosi => Sys2Proof.Machine.execFrameError mosi s
  | .badCommand code f => Sys2Proof.Machine.execBadCommand code f s
  | .nop f => Sys2Proof.Machine.execNop f s
  | .identify f => Sys2Proof.Machine.execIdentify f s
  | .tableSummary f => Sys2Proof.Machine.execTableSummary f s
  | .start f => Sys2Proof.Machine.execStart f s
  | .stop f => Sys2Proof.Machine.execStop f s
  | .resume f => Sys2Proof.Machine.execResume f s
  | .keepalive f => Sys2Proof.Machine.execKeepalive f s
  | .warmRestart f => Sys2Proof.Machine.execWarmRestart f s
  | .setTimebase f => Sys2Proof.Machine.execSetTimebase f s
  | .setSupervision f => Sys2Proof.Machine.execSetSupervision f s
  | .setOfferLimit f => Sys2Proof.Machine.execSetOfferLimit f s
  | .setEventLevels f => Sys2Proof.Machine.execSetEventLevels f s
  | .readEvents f => Sys2Proof.Machine.execReadEvents f s
  | .clearEvents f => Sys2Proof.Machine.execClearEvents f s
  | .portOpen f => Sys2Proof.Machine.execPortOpen f s
  | .portClose f => Sys2Proof.Machine.execPortClose f s
  | .readPort f => Sys2Proof.Machine.execReadPort f s
  | .begin f => Sys2Proof.Machine.execBegin f s
  | .stageInsert f => Sys2Proof.Machine.execStageInsert f s
  | .stageRemove f => Sys2Proof.Machine.execStageRemove f s
  | .stageAmend f => Sys2Proof.Machine.execStageAmend f s
  | .stageRenew f => Sys2Proof.Machine.execStageRenew f s
  | .commit f => Sys2Proof.Machine.execCommit f s
  | .discard f => Sys2Proof.Machine.execDiscard f s
  | .commitResult f => Sys2Proof.Machine.execCommitResult f s
  | .readEntry f => Sys2Proof.Machine.execReadEntry f s
  | .walkFirst f => Sys2Proof.Machine.execWalkFirst f s
  | .walkNext f => Sys2Proof.Machine.execWalkNext f s
  | .listRetired f => Sys2Proof.Machine.execListRetired f s
  | .collect f => Sys2Proof.Machine.execCollect f s
  | .probe f => Sys2Proof.Machine.execProbe f s
  | .readTicket f => Sys2Proof.Machine.execReadTicket f s
  | .huntDelimiter port => Sys2Proof.Machine.execHuntDelimiter port s

end Sys2Proof.Machine
end

