-- ==== Sys2Proof/Safety.lean ====
section
/-!
DEFINITION. What counts as a sound state of the 8520: the invariants the spec's rules give, each a
predicate that every event keeps.
-/

namespace Sys2Proof.Machine

/-- An inbound queue holds at most 4 messages, an outbound queue at most 8 answers, a quota is at most
96, and a CLOSED port holds nothing (R119, R120, R127, R132). -/
structure Port.Bounded (q : Port) : Prop where
  inbound : q.inbound.length ≤ Config.inboundRoom
  answers : q.answers ≤ Config.answerRoom
  quota   : q.quota ≤ Config.maxQuota
  closed  : q.state = .closed → q.inbound = [] ∧ q.outbound = [] ∧ q.overrun = false

/-- Every port is bounded, a CLOSED port owns no ticket, and the load of an OPEN port is within its
quota (R55, R127, R132, R137). -/
structure PortsSound (s : State) : Prop where
  bounded : ∀ p, (s.port p).Bounded
  closed  : ∀ p, (s.port p).state = .closed → ticketsOwned s p = 0
  quota   : ∀ p, (s.port p).state = .opened → load s p ≤ (s.port p).quota

/-- The supervision timer is RUNNING exactly in ACTIVE with a window above 0, the timebase is held at 0
in INIT, a device held in reset is in INIT, and the configured values are in range (R75, R163, R164,
R171, R173). -/
structure ControlSound (s : State) : Prop where
  timer  : s.ctu.timer.isSome = true ↔ s.ctu.device = .active ∧ s.ctu.window ≠ 0#16
  now    : s.ctu.device = .init → s.ctu.now = 0#32
  held   : held s = true → s.ctu.device = .init
  period : 1 ≤ s.ctu.tickPeriod.toNat ∧ s.ctu.tickPeriod.toNat ≤ 1000
  limit  : s.ctu.offerLimit ≠ 0#8

/-- The port set of PORT_OVERRUN is empty exactly while PORT_OVERRUN is clear, and so for LINK_ERROR
(R179). -/
structure EventsSound (s : State) : Prop where
  overrun : s.evu.isPending .portOverrun = false ↔ s.evu.overrunPorts = 0#8
  link    : s.evu.isPending .linkError = false ↔ s.evu.linkErrorPorts = 0#8

/-- The free order holds exactly the FREE records, and the release list exactly the PENDING ones, each
once (R53, R54). -/
structure PoolSound (s : State) : Prop where
  freeOnce    : s.rlu.freeOrder.Nodup
  freeExact   : ∀ r, r ∈ s.rlu.freeOrder ↔ (s.record r).body.isFree = true
  listedOnce  : s.rlu.releaseList.Nodup
  listedExact : ∀ r, r ∈ s.rlu.releaseList ↔ (s.record r).body.isPending = true

/-- An entry's ticket field names the record that holds the entry's handle, under its current serial,
and every record that is not FREE is so named (R14, R70). -/
structure TicketsLinked (s : State) : Prop where
  field  : ∀ i t, (s.slot i).body.ticket? = some t →
    t = s.ticketId t.number ∧
      ∃ h, (s.record t.number).body.held? = some h ∧ h.handle = s.handleOf i
  record : ∀ r h, (s.record r).body.held? = some h →
    h.handle = s.handleOf h.handle.slot ∧
      (s.slot h.handle.slot).body.ticket? = some (s.ticketId r)

/-- The pool and the entries agree on the tickets (R14, R51, R53, R54, R70). -/
structure TicketsSound (s : State) : Prop where
  pool   : PoolSound s
  linked : TicketsLinked s

/-- No ticket is PENDING outside ACTIVE and FALLBACK, and in FALLBACK those of ESSENTIAL entries alone
are (R69, R72, R176). -/
structure PendingSound (s : State) : Prop where
  gate      : ∀ r, (s.record r).body.isPending = true →
    s.ctu.device = .active ∨ s.ctu.device = .fallback
  essential : ∀ r h, (s.record r).body = .pending h → s.ctu.device = .fallback →
    ∃ e, (s.slot h.handle.slot).body.entry? = some e ∧ e.action.flags.essential = true

/-- The shape of what a slot holds: a LIVE entry has a deadline exactly when its lifetime kind is IDLE or
FIXED (R13, R76); the ticket of a RETIRING entry is OFFERED, or it is PENDING and the entry is a SINGLE
one that was spent (R83); a RETIRED entry has cause EXPIRED or SPENT and lacks QUIET (R84). -/
structure EntriesShaped (s : State) : Prop where
  live     : ∀ i l, (s.slot i).body = .live l →
    (l.deadline.isSome = true ↔
      l.entry.action.lifetimeKind = .idle ∨ l.entry.action.lifetimeKind = .fixed)
  retiring : ∀ i e cause k, (s.slot i).body = .retiring e cause k →
    (s.record k.number).body.isOffered = true ∨
      (s.record k.number).body.isPending = true ∧ e.action.flags.single = true ∧ cause = .spent
  retired  : ∀ i e cause, (s.slot i).body = .retired e cause →
    (cause = .expired ∨ cause = .spent) ∧ e.action.flags.quiet = false

/-- The transaction's op list: empty in CLOSED, at most 16 ops always (R93, R94). -/
structure EditSound (s : State) : Prop where
  closed : s.edu.txn = .closed → s.edu.ops = []
  room   : s.edu.ops.length ≤ Config.maxOps

/-- The number of INSERT ops of an op list. -/
def insertCount (ops : List Op) : Nat :=
  ops.countP (fun op => match op with
    | .insert _ => true
    | _ => false)

/-- Every entry took its serial from the counter before it moved on, no two LIVE entries share a serial,
and while a build goes on the serials its INSERTs will take are still to be given (R15, R18, R105). -/
structure SerialsSound (s : State) : Prop where
  given    : ∀ i e, (s.slot i).body.entry? = some e → s.rtb.exhausted = false →
    e.serial < s.rtb.nextSerial
  distinct : ∀ i j a b, (s.slot i).body.live? = some a → (s.slot j).body.live? = some b →
    a.entry.serial = b.entry.serial → i = j
  top      : s.rtb.exhausted = true → s.rtb.nextSerial = 0xFFFFFFFF#32
  building : s.edu.txn = .building → insertCount s.edu.ops ≠ 0 →
    s.rtb.exhausted = false ∧ s.rtb.nextSerial.toNat + insertCount s.edu.ops ≤ 2 ^ 32

/-- The staged INSERTs repeat no criteria: not those of a LIVE entry outside the removed set, nor those
of an earlier INSERT (R102). -/
def stagedDistinct (s : State) : Running → List Op → Bool
  | _, [] => true
  | run, op :: rest =>
    (match op with
      | .insert image => !isDuplicate s run (Definition.ofImage image).criteria
      | _ => true)
    && stagedDistinct s (run.after s op) rest

/-- No two LIVE entries have identical criteria, and while a build goes on its INSERTs repeat none
(R8, R102). -/
structure CriteriaSound (s : State) : Prop where
  live     : ∀ i j a b, (s.slot i).body.live? = some a → (s.slot j).body.live? = some b →
    a.entry.definition.criteria = b.entry.definition.criteria → i = j
  building : s.edu.txn = .building → stagedDistinct s ⟨[], [], 0⟩ s.edu.ops = true

/-- In INIT the table is empty, no ticket exists, every port is CLOSED, no transaction is open and the
walk cursor is absent (R24, R74, R118, R139, R155, R164). -/
structure InitSound (s : State) : Prop where
  table   : s.ctu.device = .init → s.rtb = .reset
  tickets : s.ctu.device = .init → s.rlu = .reset
  edit    : s.ctu.device = .init → s.edu = .reset
  ports   : s.ctu.device = .init → ∀ p, (s.port p).state = .closed
  cursor  : s.ctu.device = .init → s.hpt.cursor = none

/-! ### The terms the statements use -/

/-- Every block holds its hard reset values: the table (R24), the pointer (R28), the tickets (R74), the
transaction (R118), the ports (R139), the response buffer and the walk cursor (R144, R155), the control
unit (R163) and the events with both lines released (R185); every query link carries delimiters
(R139). -/
structure AtHardReset (t : State) : Prop where
  slots       : ∀ i, t.slot i = ⟨0#6, .free⟩
  generation  : t.rtb.generation = 0#16
  serial      : t.rtb.nextSerial = 0#32 ∧ t.rtb.exhausted = false
  pointer     : t.pointer = 0
  records     : ∀ r, t.record r = ⟨0#4, .free⟩
  freeOrder   : t.rlu.freeOrder = List.finRange 96
  releaseList : t.rlu.releaseList = []
  transaction : t.edu = ⟨.closed, [], ⟨.noCommit, 0, .noReason, 0, 0#16, []⟩⟩
  ports       : ∀ p, (t.port p).state = .closed ∧ (t.port p).quota = 0 ∧ (t.port p).inbound = [] ∧
    (t.port p).outbound = [] ∧ (t.port p).overrun = false
  response    : t.hpt.response = ⟨0#8, .notReady, []⟩
  cursor      : t.hpt.cursor = none
  device      : t.ctu.device = .init
  timebase    : t.ctu.now = 0#32 ∧ t.ctu.tickPeriod = 100#16
  supervision : t.ctu.window = 0#16 ∧ t.ctu.timer = none
  limit       : t.ctu.offerLimit = 16#8
  events      : t.evu.flags = 0#11 ∧ t.evu.overrunPorts = 0#8 ∧ t.evu.linkErrorPorts = 0#8
  levels      : t.evu.levels =
    #v[.note, .note, .alert, .silent, .silent, .note, .note, .alert, .alert, .alert, .note]
  lines       : alertLow t = false ∧ noteLow t = false
  links       : ∀ p k, txByte t p k = 0xB5#8

/-- The host port takes the closing event of a frame of this command, and the frame passes every test of
R145: the device is not held in reset and the transaction is not ignored, the parameter length is the
command's, the check is good, and the device has left INIT or the command is NOP. -/
abbrev Taken (c : HostCmd) (f : HostFrame) (s : State) : Prop :=
  spiUnseen s = false ∧ f.params.length = paramLength c ∧ frameChecks (hostCode c) f = true ∧
    (c = .nop ∨ s.ctu.device ≠ .init)

/-- The state after CS# rises and the response buffer takes a response (R141, R144). -/
def State.answered (s : State) (seq : Byte) (result : ResultCode) (data : List Byte) : State :=
  { s with hpt := { s.hpt with phase := .idle, miso := [], response := ⟨seq, result, data⟩ } }

/-- A run of bodies as they stand once placed: the first carries the OVERRUN flag when the mark was set
(R128). -/
def flagged (mark : Bool) : List OutBody → List OutMsg
  | [] => []
  | b :: rest => ⟨mark, b⟩ :: rest.map (fun c => ⟨false, c⟩)

/-- A port after a run of bodies was placed in its outbound queue (R128, R132). -/
def Port.placedAll (q : Port) (bodies : List OutBody) : Port :=
  { q with
    outbound := q.outbound ++ flagged q.overrun bodies
    overrun := q.overrun && bodies.isEmpty }

/-- What the route table keeps beside its slots is unchanged. -/
abbrev CountersKept (s t : State) : Prop :=
  t.rtb.generation = s.rtb.generation ∧ t.rtb.nextSerial = s.rtb.nextSerial ∧
    t.rtb.exhausted = s.rtb.exhausted

/-- Everything but the slots, the tickets, the ports, the pointer and the pending events is unchanged. -/
abbrev RestKept (s t : State) : Prop :=
  CountersKept s t ∧ t.edu = s.edu ∧ t.hpt = s.hpt ∧ t.ctu = s.ctu

/-- A slot whose entry's ticket has completed: the ticket field of a LIVE entry is cleared, and a RETIRING
entry finishes its retirement (R21, R70, R81). -/
def Slot.ticketDone (sl : Slot) : Slot :=
  match sl.body with
  | .live l => ⟨sl.era, .live { l with ticket := none }⟩
  | .retiring e cause _ =>
    if cause = .removed ∨ e.action.flags.quiet = true then ⟨sl.era + 1#6, .free⟩
    else ⟨sl.era, .retired e cause⟩
  | .free => sl
  | .retired _ _ => sl

/-- The slot of the entry that owns a record's ticket. -/
def State.owningSlot (s : State) (r : RecNo) : Option SlotNo :=
  (s.record r).body.held?.map (fun h => h.handle.slot)

/-- The tickets of these records completed one after another: their records are FREE under their serials
and last in the free order, off the release list, and their entries' tickets are done (R53, R70). -/
structure Completed (rs : List RecNo) (s t : State) : Prop where
  records     : ∀ r, t.record r = if r ∈ rs then ⟨(s.record r).serial, .free⟩ else s.record r
  freeOrder   : t.rlu.freeOrder = s.rlu.freeOrder ++ rs
  releaseList : t.rlu.releaseList = s.rlu.releaseList.filter (fun r => !rs.contains r)
  slots       : ∀ i, t.slot i =
    if ∃ r ∈ rs, s.owningSlot r = some i then (s.slot i).ticketDone else s.slot i

/-- The WITHDRAWN notices of these records' tickets for one port, in order (R67). -/
def withdrawnFor (s : State) (reason : WithdrawReason) (rs : List RecNo) (p : PortNo) : List OutBody :=
  rs.filterMap (fun r =>
    match (s.record r).body.held? with
    | some h => if h.owner = p then some (.withdrawn (s.ticketId r) h.tag reason) else none
    | none => none)

/-- The tickets of these records withdrawn one after another (R67, R69). -/
structure Withdrew (reason : WithdrawReason) (rs : List RecNo) (s t : State) : Prop where
  completed : Completed rs s t
  ports     : ∀ p, t.port p = (s.port p).placedAll (withdrawnFor s reason rs p)

/-- The state after a lookup event that claims nothing: the pointer past the port, the LOOKUP out of its
inbound queue, and the answer at the tail of its outbound queue (R27, R29). -/
def State.lookupAnswered (s : State) (p : PortNo) (b : OutBody) : State :=
  { s with
    pointer := p + 1
    qp := s.qp.set p.val { (s.port p).placedAll [b] with inbound := (s.port p).inbound.tail } }

/-- A LIVE entry matches a lookup (R33): not dormant, the identifier under the mask, the kind, and the
source segment. -/
abbrev Matches (s : State) (q : Query) (l : LiveEntry) : Prop :=
  (s.ctu.device = .fallback → l.entry.action.flags.essential = true) ∧
    q.ident &&& l.entry.definition.identMask
      = l.entry.definition.identValue &&& l.entry.definition.identMask ∧
    (l.entry.definition.kind = .any ∨ l.entry.definition.kind.code = q.kind) ∧
    l.entry.definition.sources.getLsbD q.source.val = true

/-- One order key comes before another: a lower precedence, or an equal one and a lower serial (R15). -/
abbrev KeyBefore (a b : OrderKey) : Prop :=
  a.precedence.toNat < b.precedence.toNat ∨
    a.precedence = b.precedence ∧ a.serial.toNat < b.serial.toNat

/-- The LIVE entry a lookup was decided on, as the match left it: the count one higher and at most 65535,
and an IDLE deadline moved (R35). -/
def LiveEntry.counted (now : Tick) (l : LiveEntry) : LiveEntry :=
  { l with
    entry := { l.entry with matchCount := BitVec.ofNat 16 (min 65535 (l.entry.matchCount.toNat + 1)) }
    deadline := match l.entry.action.lifetimeKind with
      | .idle => some (now + l.entry.action.lifetimeValue.setWidth 32)
      | .permanent => l.deadline
      | .fixed => l.deadline }

/-- The entry of a ROUTE under pacing has its window shut for one pace interval (R40, R41). -/
def LiveEntry.paced (now : Tick) (l : LiveEntry) : LiveEntry :=
  { l with
    entry := { l.entry with windowOpen := now + l.entry.action.paceInterval.setWidth 32 }
    window := .shut }

/-- A lookup is evaluated on the entry it matched: granted to a port, well formed, the device in ACTIVE or
FALLBACK, and the entry found by the search. -/
abbrev Evaluated (s : State) (q : Query) (tag : Byte) (i : SlotNo) (l : LiveEntry) : Prop :=
  granted s = some q.source ∧
    (s.port q.source).inbound.head? = some (.lookup tag q.ident q.kind q.length) ∧
    q.wellFormed = true ∧ (s.ctu.device = .active ∨ s.ctu.device = .fallback) ∧
    search s q = some (i, l)

/-- What a PROBE reports agrees with the answer a LOOKUP received (R50, R161). -/
def ProbeAgrees (r : ProbeResult) : OutBody → Prop
  | .route _ label dest ident _ =>
    r.answer = 0x20#8 ∧ r.reason = 0#8 ∧ r.label = label ∧ r.destinations = dest ∧ r.identOut = ident
  | .defer _ ticket due _ =>
    r.answer = 0x21#8 ∧ r.reason = 0#8 ∧ r.due = due ∧ (r.ticket = ticket.word ∨ r.ticket = 0xFFFF#16)
  | .drop _ reason label => r.answer = 0x22#8 ∧ r.reason = reason.code ∧ r.label = label
  | .noMatch _ => r.answer = 0x23#8 ∧ r.reason = 0#8 ∧ r.handle = 0xFFFF#16
  | .refuse _ reason => r.answer = 0x24#8 ∧ r.reason = reason.code ∧ r.handle = 0xFFFF#16
  | _ => False

/-- A LIVE entry whose order key is above a bound and before which no other such entry comes. -/
abbrev NextInWalk (s : State) (above : OrderKey → Prop) (i : SlotNo) (l : LiveEntry) : Prop :=
  (s.slot i).body = .live l ∧ above l.entry.key ∧
    ∀ j m, (s.slot j).body = .live m → above m.entry.key → j ≠ i → KeyBefore l.entry.key m.entry.key

/-! ### Fields by position (R188) -/

/-- The four-byte field that starts at a position (R188). -/
abbrev tickAt (bs : List Byte) (i : Nat) : Tick := halfAt bs i ++ halfAt bs (i + 2)

/-- A slot's handle: era times 512 plus the slot number (R4). -/
abbrev IsHandle (w : Half) (s : State) (i : SlotNo) : Prop := w.toNat = (s.slot i).era.toNat * 512 + i.val

/-- The 20 bytes of action fields that start at a position of an image (R189). -/
structure ActionAt (data : List Byte) (base : Nat) (a : Action) : Prop where
  disposition   : byteAt data base = (match a.disposition with
    | .forward => 0#8
    | .discard => 1#8)
  destinations  : byteAt data (base + 1) = a.destinations
  rewrite       : byteAt data (base + 2) = (if a.rewrite = none then 0#8 else 1#8) ∧
    identAt data (base + 3) = a.rewrite.getD 0#24
  label         : halfAt data (base + 6) = a.label
  lengthMin     : halfAt data (base + 8) = a.lengthMin
  lengthMax     : halfAt data (base + 10) = a.lengthMax
  paceInterval  : halfAt data (base + 12) = a.paceInterval
  paceMode      : byteAt data (base + 14) = (match a.paceMode with
    | .drop => 0#8
    | .defer => 1#8)
  lifetimeKind  : byteAt data (base + 15) = (match a.lifetimeKind with
    | .permanent => 0#8
    | .idle => 1#8
    | .fixed => 2#8)
  lifetimeValue : identAt data (base + 16) = a.lifetimeValue
  flags         : ∀ n, (byteAt data (base + 19)).getLsbD n = (match n with
    | 0 => a.flags.single
    | 1 => a.flags.essential
    | 2 => a.flags.reflect
    | 3 => a.flags.quiet
    | _ => false)

/-- The 32 bytes of a definition image that start at a position (R189). -/
structure DefinitionAt (data : List Byte) (base : Nat) (d : Definition) : Prop where
  precedence : halfAt data base = d.precedence
  identValue : identAt data (base + 2) = d.identValue
  identMask  : identAt data (base + 5) = d.identMask
  kind       : byteAt data (base + 8) = (match d.kind with
    | .any => 0#8
    | .data => 1#8
    | .poll => 2#8)
  sources    : byteAt data (base + 9) = d.sources
  action     : ActionAt data (base + 10) d.action
  trailing   : halfAt data (base + 30) = 0#16

/-- The 20 bytes of the runtime image of the entry in a slot, from a position on (R10, R189): an absent
cause, deadline or ticket reads as 0, 0 or 0xFFFF. -/
structure RuntimeAt (data : List Byte) (base : Nat) (s : State) (i : SlotNo) (e : Entry) : Prop where
  handle     : IsHandle (halfAt data base) s i
  state      : byteAt data (base + 2) = (match (s.slot i).body with
    | .free => 0#8
    | .live _ => 1#8
    | .retiring _ _ _ => 2#8
    | .retired _ _ => 3#8)
  cause      : byteAt data (base + 3) = (match (s.slot i).body with
    | .retiring _ .removed _ => 1#8
    | .retiring _ .expired _ => 2#8
    | .retiring _ .spent _ => 3#8
    | .retired _ .removed => 1#8
    | .retired _ .expired => 2#8
    | .retired _ .spent => 3#8
    | .live _ => 0#8
    | .free => 0#8)
  matchCount : halfAt data (base + 4) = e.matchCount
  serial     : tickAt data (base + 6) = e.serial
  windowOpen : tickAt data (base + 10) = e.windowOpen
  deadline   : tickAt data (base + 14) = (match (s.slot i).body with
    | .live l => l.deadline.getD 0#32
    | .retiring _ _ _ => 0#32
    | .retired _ _ => 0#32
    | .free => 0#32)
  ticket     : match (s.slot i).body.ticket? with
    | some k => (halfAt data (base + 18)).toNat = k.serial.toNat * 256 + k.number.val
    | none => halfAt data (base + 18) = 0xFFFF#16

/-- The items of a READ_TICKET from the entry handle on, for a record that holds a ticket (R159). -/
structure HeldAt (data : List Byte) (h : Held) (cancelRequested : Bool) (offerDeadline : Option Tick) :
    Prop where
  handle : (halfAt data 3).toNat = h.handle.era.toNat * 512 + h.handle.slot.val
  owner  : (byteAt data 5).toNat = h.owner.val
  tag    : byteAt data 6 = h.tag
  ident  : identAt data 7 = h.ident
  due    : tickAt data 10 = h.due
  flags  : ∀ n, (byteAt data 14).getLsbD n = (match n with
    | 0 => cancelRequested
    | 1 => offerDeadline.isSome
    | _ => false)
  offer  : tickAt data 15 = offerDeadline.getD 0#32

/-- The items of a PROBE response from the answer to the due tick (R161). -/
structure ProbeAt (data : List Byte) (answer reason : Byte) (handle label : Half) (dest : SegSet)
    (identOut : Ident) (ticket : Half) (due : Tick) : Prop where
  answer   : byteAt data 1 = answer
  reason   : byteAt data 2 = reason
  handle   : halfAt data 3 = handle
  label    : halfAt data 5 = label
  dest     : byteAt data 7 = dest
  identOut : identAt data 8 = identOut
  ticket   : halfAt data 11 = ticket
  due      : tickAt data 13 = due

/-! ### What validation rejects (R99 to R105) -/

/-- A field of the action fields that start at a position of an image fails the FIELD test (R101, R191). -/
def ActionFieldFails (img : List Byte) (base : Nat) : Nat → Prop
  | 6 => 1 < (byteAt img base).toNat
  | 7 => byteAt img base = 0#8 ∧ byteAt img (base + 1) = 0#8
  | 8 => (byteAt img (base + 2) ≠ 0#8 ∧ byteAt img (base + 2) ≠ 1#8) ∨
      (byteAt img (base + 2) = 0#8 ∧ identAt img (base + 3) ≠ 0#24)
  | 10 => 2047 < (halfAt img (base + 8)).toNat
  | 11 => 2047 < (halfAt img (base + 10)).toNat ∨
      (halfAt img (base + 10)).toNat < (halfAt img (base + 8)).toNat
  | 13 => 1 < (byteAt img (base + 14)).toNat
  | 14 => 2 < (byteAt img (base + 15)).toNat
  | 15 => (byteAt img (base + 15) = 1#8 ∨ byteAt img (base + 15) = 2#8) ∧ identAt img (base + 16) = 0#24
  | 16 => (byteAt img (base + 19)).toNat / 16 ≠ 0
  | _ => False

/-- A field of a definition image fails the FIELD test (R101, R191). -/
def DefinitionFieldFails (img : List Byte) : Nat → Prop
  | 1 => 4095 < (halfAt img 0).toNat
  | 4 => 2 < (byteAt img 8).toNat
  | 5 => byteAt img 9 = 0#8
  | 17 => byteAt img 30 ≠ 0#8 ∨ byteAt img 31 ≠ 0#8
  | n => ActionFieldFails img 10 n

/-- The fields an op's image fails, by number; a REMOVE and a RENEW have no image (R100, R101). -/
def OpFieldFails : Op → Nat → Prop
  | .insert img => DefinitionFieldFails img
  | .amend _ img => ActionFieldFails img 0
  | .remove _ => fun _ => False
  | .renew _ => fun _ => False

/-- Two definitions have identical criteria (R102). -/
abbrev SameCriteria (a b : Definition) : Prop :=
  a.identValue &&& a.identMask = b.identValue &&& b.identMask ∧ a.identMask = b.identMask ∧
    a.kind = b.kind ∧ a.sources = b.sources

/-- The entry of a slot is in the removed set before an op: an earlier REMOVE names it (R100). -/
abbrev RemovedBefore (s : State) (n : Nat) (i : SlotNo) : Prop :=
  ∃ m w, m < n ∧ s.edu.ops[m]? = some (.remove w) ∧ s.namedLive w = some i

/-- An INSERT's criteria are those of a LIVE entry outside the removed set, or of an earlier INSERT
(R102). -/
abbrev Duplicated (s : State) (n : Nat) (d : Definition) : Prop :=
  (∃ i l, (s.slot i).body = .live l ∧ ¬ RemovedBefore s n i ∧ SameCriteria d l.entry.definition) ∨
    ∃ m img, m < n ∧ s.edu.ops[m]? = some (.insert img) ∧ SameCriteria d (.ofImage img)

/-- The tests of a target handle, in order (R100, R104). -/
def targetTests (s : State) (n : Nat) (w : Half) : List (CommitReason × Prop) :=
  [(.notLive, s.namedLive w = none), (.doubleTarget, ∃ i, s.namedLive w = some i ∧ RemovedBefore s n i)]

/-- The tests of the op at an index, in order, each with what it fails on (R100 to R105). -/
def opTests (s : State) (n : Nat) : Op → List (CommitReason × Prop)
  | .insert img =>
    [ (.field, ∃ k, DefinitionFieldFails img k),
      (.duplicate, Duplicated s n (.ofImage img)),
      (.noSlots, freeCount s < insertCount (s.edu.ops.take (n + 1))),
      (.serialExhausted, s.rtb.exhausted = true ∨
        4294967295 < s.rtb.nextSerial.toNat + insertCount (s.edu.ops.take (n + 1)) - 1) ]
  | .remove w => targetTests s n w
  | .amend w img => targetTests s n w ++ [(.field, ∃ k, ActionFieldFails img 0 k)]
  | .renew w => targetTests s n w

/-- The first test that fails has this reason (R100). -/
def FirstFailure : List (CommitReason × Prop) → CommitReason → Prop
  | [], _ => False
  | (r, fails) :: rest, reason => (fails ∧ reason = r) ∨ (¬ fails ∧ FirstFailure rest reason)

/-- The op at an index fails validation for a reason, and the field number reported with it: the first
failing field for FIELD, 0 for every other reason (R100, R101). -/
def OpRejected (s : State) (n : Nat) (reason : CommitReason) (field : Nat) : Prop :=
  ∃ op, s.edu.ops[n]? = some op ∧ FirstFailure (opTests s n op) reason ∧
    (reason = .field → OpFieldFails op field ∧ ∀ k, k < field → ¬ OpFieldFails op k) ∧
    (reason ≠ .field → field = 0)

/-- The failure that ends the validation of the staged ops: EMPTY for no ops, or the first op that fails
(R99, R100). -/
def CommitRejected (s : State) (n : Nat) (reason : CommitReason) (field : Nat) : Prop :=
  (s.edu.ops = [] ∧ n = 0 ∧ reason = .empty ∧ field = 0) ∨
    (OpRejected s n reason field ∧ ∀ m r k, m < n → ¬ OpRejected s m r k)

/-- The commands that begin or end a hard reset (R163). -/
def isResetCommand : Instr → Bool
  | .powerOn _ => true
  | .powerOnHoldEnd => true
  | .hardReset => true
  | .resetRelease => true
  | _ => false

end Sys2Proof.Machine
end

