-- ==== Sys2Proof/Certificates/Slice0/Obligations.lean ====
section
/-!
DEFINITION. The statements about the 8520. Each docstring names the rules it follows; a clause that
rests on a choice of the model names the log entry.
-/

open Sys2Proof Sys2Proof.Machine

/-! ### The block's step -/

/-- A step takes the command at the front of the queue and leaves the rest waiting; on an empty queue the
block idles (logs 1 and 2: the model's choice). -/
def Obligations.StepTakesFrontCommand : Prop :=
  (∀ (c : Instr) (rest : List Instr) (s : State),
    step { s with pending := c :: rest } = exec c { s with pending := rest }) ∧
  (∀ s : State, s.pending = [] → step s = .next s)

/-- Every command answers a next state, and leaves the queue of waiting commands alone (log 1). -/
def Obligations.CommandsLeaveTheQueue : Prop :=
  ∀ (c : Instr) (s : State), ∃ t, exec c s = .next t ∧ t.pending = s.pending

/-! ### Reset -/

/-- The state after reset holds the hard reset values, with both hold and RESET# over, and every
invariant of Safety.lean (R24, R28, R74, R118, R139, R144, R155, R163, R185). The cause POWER_ON is the
model's choice (log 4). -/
def Obligations.ResetStateIsSound : Prop :=
  AtHardReset State.reset ∧ held State.reset = false ∧ State.reset.ctu.cause = .powerOn ∧
  ControlSound State.reset ∧ EventsSound State.reset ∧ EditSound State.reset ∧ PortsSound State.reset ∧
  TicketsSound State.reset ∧ PendingSound State.reset ∧ SerialsSound State.reset ∧
  CriteriaSound State.reset ∧ InitSound State.reset ∧ EntriesShaped State.reset

/-- A hard reset begins at POWER_ON with cause POWER_ON, and at a fall of RESET# outside the power-on
hold with cause PIN; a fall during the hold begins none. It is released when the hold has ended and
RESET# is high, the cause kept (R163, R178). An SPI transaction in progress is lost (R150; the phase that
says so is the model's, log 8). -/
def Obligations.HardResetBeginsAndEnds : Prop :=
  (∀ (low : Bool) (s : State), ∃ t, exec (.powerOn low) s = .next t ∧ AtHardReset t ∧
    t.ctu.cause = .powerOn ∧ t.ctu.powerHold = true ∧ t.ctu.resetLow = low ∧ t.pending = s.pending) ∧
  (∀ s : State, s.ctu.resetLow = false → s.ctu.powerHold = false →
    ∃ t, exec .hardReset s = .next t ∧ AtHardReset t ∧ t.ctu.cause = .pin ∧ t.ctu.powerHold = false ∧
      t.ctu.resetLow = true ∧ t.hpt.miso = [] ∧
      (s.hpt.phase = .selected → t.hpt.phase = .ignored) ∧ t.pending = s.pending) ∧
  (∀ s : State, s.ctu.resetLow = false → s.ctu.powerHold = true →
    exec .hardReset s = .next { s with ctu := { s.ctu with resetLow := true } }) ∧
  (∀ s : State, s.ctu.powerHold = true → s.ctu.resetLow = false →
    ∃ t, exec .powerOnHoldEnd s = .next t ∧ AtHardReset t ∧ held t = false ∧ t.ctu.cause = s.ctu.cause ∧
      t.pending = s.pending) ∧
  (∀ s : State, s.ctu.powerHold = true → s.ctu.resetLow = true →
    exec .powerOnHoldEnd s = .next { s with ctu := { s.ctu with powerHold := false } }) ∧
  (∀ s : State, s.ctu.resetLow = true → s.ctu.powerHold = false →
    ∃ t, exec .resetRelease s = .next t ∧ AtHardReset t ∧ held t = false ∧ t.ctu.cause = s.ctu.cause ∧
      t.pending = s.pending) ∧
  (∀ s : State, s.ctu.resetLow = true → s.ctu.powerHold = true →
    exec .resetRelease s = .next { s with ctu := { s.ctu with resetLow := false } })

/-- In INIT, once released, the completion of the memory clear takes the device to STANDBY with the
timebase at 0 and raises INIT_DONE; since the table, the tickets and the queues are empty in INIT, it
changes nothing else (R164; the period of the tick in progress is read from R171, log 11). -/
def Obligations.MemoryClearEntersStandby : Prop :=
  ∀ s : State, s.ctu.device = .init → held s = false → InitSound s → PortsSound s →
    exec .memoryClearComplete s = .next { s with
      ctu := { s.ctu with device := .standby, now := 0#32, tickInProgress := s.ctu.tickPeriod }
      evu := { s.evu with flags := s.evu.flags ||| 1#11 } }

/-! ### Time -/

/-- Outside INIT a tick adds one to now, wrapping, and the next tick lasts the period in force (R170,
R171, log 11); in INIT the timebase is held. A SHUT window of a LIVE entry opens once its window-open tick is
reached (R12, R172), and one whose tick lies ahead stays SHUT (the event is then not taken: log 3). -/
def Obligations.TickAndWindowEvents : Prop :=
  (∀ s : State, s.ctu.device ≠ .init →
    exec .timebaseTick s = .next { s with
      ctu := { s.ctu with now := s.ctu.now + 1#32, tickInProgress := s.ctu.tickPeriod } }) ∧
  (∀ s : State, s.ctu.device = .init → exec .timebaseTick s = .next s) ∧
  (∀ (s : State) (i : SlotNo) (l : LiveEntry), s.ctu.device ≠ .init → (s.slot i).body = .live l →
    l.window = .shut → (l.entry.windowOpen = s.ctu.now ∨ 2 ^ 31 ≤ (l.entry.windowOpen - s.ctu.now).toNat) →
    exec (.windowOpens i) s = .next (s.setSlot i ⟨(s.slot i).era, .live { l with window := .opened }⟩)) ∧
  (∀ (s : State) (i : SlotNo) (l : LiveEntry), (s.slot i).body = .live l →
    0 < (l.entry.windowOpen - s.ctu.now).toNat → (l.entry.windowOpen - s.ctu.now).toNat < 2 ^ 31 →
    exec (.windowOpens i) s = .next s)

/-- An expiry whose entry is LIVE with its deadline reached retires the entry with cause EXPIRED and
raises ENTRY_EXPIRED (R22, R78, R80, R81). Without a ticket the slot goes to RETIRED, or to FREE under
the next era with QUIET; a PENDING ticket is withdrawn with reason EXPIRED first; an OFFERED ticket holds
the entry RETIRING. An expiry whose deadline lies ahead does not happen (log 3). -/
def Obligations.ExpiryRetiresEntry : Prop :=
  ∀ (s : State) (i : SlotNo) (l : LiveEntry) (d : Tick),
    s.ctu.device ≠ .init → (s.slot i).body = .live l → l.deadline = some d →
    let finished : Slot :=
      if l.entry.action.flags.quiet then ⟨(s.slot i).era + 1#6, .free⟩
      else ⟨(s.slot i).era, .retired l.entry .expired⟩
    let expired (t : State) : State := { t with evu := { t.evu with flags := t.evu.flags ||| 8#11 } }
    ((d - s.ctu.now = 0#32 ∨ 2 ^ 31 ≤ (d - s.ctu.now).toNat) → l.ticket = none →
      exec (.deadlineExpiry i) s = .next (expired (s.setSlot i finished))) ∧
    ((d - s.ctu.now = 0#32 ∨ 2 ^ 31 ≤ (d - s.ctu.now).toNat) →
      ∀ k h c o, l.ticket = some k → (s.record k.number).body = .offered h c o →
      exec (.deadlineExpiry i) s
        = .next (expired (s.setSlot i ⟨(s.slot i).era, .retiring l.entry .expired k⟩))) ∧
    ((d - s.ctu.now = 0#32 ∨ 2 ^ 31 ≤ (d - s.ctu.now).toNat) →
      ∀ k h, l.ticket = some k → (s.record k.number).body = .pending h → h.handle.slot = i →
      ∃ t, exec (.deadlineExpiry i) s = .next t ∧
        (∀ r, t.record r
          = if r = k.number then ⟨(s.record r).serial, .free⟩ else s.record r) ∧
        t.rlu.freeOrder = s.rlu.freeOrder ++ [k.number] ∧
        t.rlu.releaseList = s.rlu.releaseList.filter (fun r => r != k.number) ∧
        (∀ j, t.slot j = if j = i then finished else s.slot j) ∧
        (∀ p, t.port p = (s.port p).placedAll (withdrawnFor s .expired [k.number] p)) ∧
        t.evu = { s.evu with flags := s.evu.flags ||| 8#11 } ∧ t.pointer = s.pointer ∧ RestKept s t) ∧
    ((d - s.ctu.now ≠ 0#32 → (d - s.ctu.now).toNat < 2 ^ 31 → exec (.deadlineExpiry i) s = .next s))

/-- In ACTIVE and FALLBACK, the ticket at the front of the release list falls due once its due tick is
reached (R59, R60). With a destination it becomes OFFERED, unsent, the window is written, and a RELEASE
is placed for the owner; with none it is withdrawn with reason NO_DESTINATION and the window is left. -/
def Obligations.DueTicketIsOfferedOrWithdrawn : Prop :=
  ∀ (s : State) (r : RecNo) (rest : List RecNo) (h : Held) (e : Entry),
    (s.ctu.device = .active ∨ s.ctu.device = .fallback) → s.rlu.releaseList = r :: rest →
    (s.record r).body = .pending h →
    (h.due - s.ctu.now = 0#32 ∨ 2 ^ 31 ≤ (h.due - s.ctu.now).toNat) →
    (s.slot h.handle.slot).body.entry? = some e →
    let i := h.handle.slot
    let dest := destinations s h.owner e.action
    let opens := s.ctu.now + e.action.paceInterval.setWidth 32
    (dest ≠ 0#8 →
      ∃ t, exec .dueExpiry s = .next t ∧
        (∀ q, t.record q
          = if q = r then ⟨(s.record r).serial, .offered h false none⟩ else s.record q) ∧
        t.rlu.freeOrder = s.rlu.freeOrder ∧
        t.rlu.releaseList = s.rlu.releaseList.filter (fun q => q != r) ∧
        (∀ l, (s.slot i).body = .live l → t.slot i = ⟨(s.slot i).era,
          .live { l with entry := { l.entry with windowOpen := opens }, window := .shut }⟩) ∧
        (∀ c k, (s.slot i).body = .retiring e c k →
          t.slot i = ⟨(s.slot i).era, .retiring { e with windowOpen := opens } c k⟩) ∧
        (∀ j, j ≠ i → t.slot j = s.slot j) ∧
        (∀ p, t.port p = (s.port p).placedAll (if p = h.owner then
          [.release (s.ticketId r) h.tag e.action.label dest (e.action.rewrite.getD h.ident)] else [])) ∧
        t.evu = s.evu ∧ t.pointer = s.pointer ∧ RestKept s t) ∧
    (dest = 0#8 →
      ∃ t, exec .dueExpiry s = .next t ∧ Withdrew .noDestination [r] s t ∧
        t.evu = s.evu ∧ t.pointer = s.pointer ∧ RestKept s t)

/-- An OFFERED ticket whose offer deadline is reached completes without a notice, and OFFER_TIMEOUT is
raised (R66, R70); one whose offer deadline lies ahead, or is absent, does not time out (log 3). -/
def Obligations.OfferTimeoutCompletesTicket : Prop :=
  (∀ (s : State) (r : RecNo) (h : Held) (c : Bool) (d : Tick),
    s.ctu.device ≠ .init → (s.record r).body = .offered h c (some d) →
    (d - s.ctu.now = 0#32 ∨ 2 ^ 31 ≤ (d - s.ctu.now).toNat) →
    ∃ t, exec (.offerTimeout r) s = .next t ∧ Completed [r] s t ∧
      t.evu = { s.evu with flags := s.evu.flags ||| 64#11 } ∧ t.qp = s.qp ∧ t.pointer = s.pointer ∧
      RestKept s t) ∧
  (∀ (s : State) (r : RecNo) (h : Held) (c : Bool) (o : Option Tick),
    (s.record r).body = .offered h c o →
    (∀ d, o = some d → d - s.ctu.now ≠ 0#32 ∧ (d - s.ctu.now).toNat < 2 ^ 31) →
    exec (.offerTimeout r) s = .next s)

/-- The supervision expiry takes the device from ACTIVE to FALLBACK, stops the timer, withdraws every
PENDING ticket of an entry without ESSENTIAL with reason FALLBACK in release-list order, and raises
FALLBACK_ENTERED (R69, R176). A ticket counts as ESSENTIAL exactly when the slot of the handle it holds has
an entry whose flags have ESSENTIAL (R7). A supervision expiry whose tick lies ahead does not happen (R174;
log 3). -/
def Obligations.SupervisionExpiryEntersFallback : Prop :=
  (∀ (s : State) (x : Tick),
    s.ctu.device = .active → s.ctu.timer = some x →
    (x - s.ctu.now = 0#32 ∨ 2 ^ 31 ≤ (x - s.ctu.now).toNat) →
    s.rlu.releaseList.Nodup → (∀ r ∈ s.rlu.releaseList, (s.record r).body.isPending = true) →
    ∃ t, exec .supervisionExpiry s = .next t ∧
      Withdrew .fallback (s.rlu.releaseList.filter (fun r => !ticketEssential s r)) s t ∧
      t.ctu = { s.ctu with device := .fallback, timer := none } ∧
      t.evu = { s.evu with flags := s.evu.flags ||| 512#11 } ∧
      CountersKept s t ∧ t.pointer = s.pointer ∧ t.edu = s.edu ∧ t.hpt = s.hpt) ∧
  (∀ (s : State) (r : RecNo), ticketEssential s r = true ↔ ∃ h e,
    (s.record r).body.held? = some h ∧ (s.slot h.handle.slot).body.entry? = some e ∧
    e.definition.action.flags.essential = true) ∧
  (∀ (s : State) (x : Tick), s.ctu.timer = some x → x - s.ctu.now ≠ 0#32 →
    (x - s.ctu.now).toNat < 2 ^ 31 → exec .supervisionExpiry s = .next s)

/-! ### The query links -/

/-- A well-formed message that arrives on an OPEN port in FRAME joins the tail of an inbound queue of
fewer than 4 messages; with 4 or more it is discarded, the overrun mark is set, and PORT_OVERRUN is
raised with the port in its set (R126, R127, R192). -/
def Obligations.ArrivalQueuesOrOverruns : Prop :=
  ∀ (s : State) (p : PortNo) (m : InMsg), (s.port p).state = .opened → (s.port p).receiver = .frame →
    ((s.port p).inbound.length < 4 →
      exec (.frameArrival p ⟨m.content, false⟩) s
        = .next (s.setPort p { s.port p with inbound := (s.port p).inbound ++ [m] })) ∧
    (4 ≤ (s.port p).inbound.length →
      exec (.frameArrival p ⟨m.content, false⟩) s = .next { s with
        qp := s.qp.set p.val { s.port p with overrun := true }
        evu := { s.evu with
          flags := s.evu.flags ||| 128#11
          overrunPorts := s.evu.overrunPorts ||| 1#8 <<< p.val } })

/-- A frame with content that fails an arrival check (fewer than 2 content bytes, counted as too long or
more than 9 bytes, a bad check byte, no inbound kind code, another length than its kind's) is discarded and raises LINK_ERROR with
the port in its set, nothing else changing (R126, R193). -/
def Obligations.FailedArrivalRaisesLinkError : Prop :=
  ∀ (s : State) (p : PortNo) (content : List Byte) (tooLong : Bool), (s.port p).state = .opened →
    (s.port p).receiver = .frame → content ≠ [] →
    (tooLong = true ∨ content.length < 2 ∨ 9 < content.length ∨ crc8 content ≠ 0#8 ∨
      content.head? ∉ [some 0x10#8, some 0x11#8, some 0x12#8, some 0x13#8] ∨
      (content.head? = some 0x10#8 ∧ content.length ≠ 9) ∨
      (content.head? = some 0x11#8 ∧ content.length ≠ 4) ∨
      (content.head? = some 0x12#8 ∧ content.length ≠ 4) ∨
      (content.head? = some 0x13#8 ∧ content.length ≠ 3)) →
    exec (.frameArrival p ⟨content, tooLong⟩) s = .next { s with evu := { s.evu with
      flags := s.evu.flags ||| 256#11
      linkErrorPorts := s.evu.linkErrorPorts ||| 1#8 <<< p.val } }

/-- A bad escape on an OPEN port in FRAME sends the receiver to HUNT and raises LINK_ERROR for the port;
a delimiter in HUNT puts it in FRAME, and so does the delimiter that closes a frame begun before the hunt
(log 9); the link of a CLOSED port changes nothing (R123, R125). -/
def Obligations.ReceiverFollowsTheLine : Prop :=
  ∀ (s : State) (p : PortNo),
    (∀ b : Byte, (s.port p).state = .opened → (s.port p).receiver = .frame →
      b ≠ 0xF5#8 → b ≠ 0xF4#8 → b ≠ 0xB5#8 →
      exec (.badEscape p b) s = .next { s with
        qp := s.qp.set p.val { s.port p with receiver := .hunt }
        evu := { s.evu with
          flags := s.evu.flags ||| 256#11
          linkErrorPorts := s.evu.linkErrorPorts ||| 1#8 <<< p.val } }) ∧
    ((s.port p).state = .opened → (s.port p).receiver = .hunt →
      exec (.huntDelimiter p) s = .next (s.setPort p { s.port p with receiver := .frame }) ∧
      ∀ content tooLong, exec (.frameArrival p ⟨content, tooLong⟩) s
        = .next (s.setPort p { s.port p with receiver := .frame })) ∧
    ((s.port p).state = .closed → ∀ content tooLong b,
      exec (.frameArrival p ⟨content, tooLong⟩) s = .next s ∧ exec (.badEscape p b) s = .next s ∧
      exec (.huntDelimiter p) s = .next s)

/-- An ACK at the head of an OPEN port with room, naming a sent OFFERED ticket the port owns, completes
the ticket and places no reply (R62, R129); behind 8 answers it waits (log 3). -/
def Obligations.AckCompletesSentOffer : Prop :=
  (∀ (s : State) (p : PortNo) (id : Half) (rest : List InMsg) (r : RecNo) (h : Held) (c : Bool) (d : Tick),
    (s.port p).state = .opened → (s.port p).answers < 8 → (s.port p).inbound = .ack id :: rest →
    s.namedTicket id = some r → (s.record r).body = .offered h c (some d) → h.owner = p →
    ∃ t, exec (.ack p) s = .next t ∧ Completed [r] s t ∧
      t.qp = s.qp.set p.val { s.port p with inbound := rest } ∧
      t.evu = s.evu ∧ t.pointer = s.pointer ∧ RestKept s t) ∧
  (∀ (s : State) (p : PortNo), 8 ≤ (s.port p).answers →
    exec (.ack p) s = .next s ∧ exec (.cancel p) s = .next s ∧ exec (.ping p) s = .next s)

/-- A CANCEL at the head of an OPEN port with room, naming a ticket the port owns: a PENDING ticket
completes and CANCELLED is placed (R64); an OFFERED ticket stays, its cancel-requested set, and TOO_LATE
is placed (R65). -/
def Obligations.CancelCompletesOrIsTooLate : Prop :=
  ∀ (s : State) (p : PortNo) (id : Half) (rest : List InMsg) (r : RecNo),
    (s.port p).state = .opened → (s.port p).answers < 8 → (s.port p).inbound = .cancel id :: rest →
    s.namedTicket id = some r →
    (∀ h, (s.record r).body = .pending h → h.owner = p →
      ∃ t, exec (.cancel p) s = .next t ∧ Completed [r] s t ∧
        t.qp = s.qp.set p.val { (s.port p).placedAll [.cancelled id] with inbound := rest } ∧
        t.evu = s.evu ∧ t.pointer = s.pointer ∧ RestKept s t) ∧
    (∀ h c o, (s.record r).body = .offered h c o → h.owner = p →
      ∃ t, exec (.cancel p) s = .next t ∧
        t = (s.setRecord r ⟨(s.record r).serial, .offered h true o⟩).setPort p
          { (s.port p).placedAll [.tooLate id] with inbound := rest })

/-- An ACK or CANCEL that names no ticket is answered STRAY UNKNOWN, one that names another port's ticket
STRAY NOT_OWNER, and an ACK of an own ticket that is PENDING or unsent STRAY NOT_SENT; nothing else
changes (R63). -/
def Obligations.StrayAnswersByCause : Prop :=
  ∀ (s : State) (p : PortNo) (id : Half) (rest : List InMsg),
    (s.port p).state = .opened → (s.port p).answers < 8 →
    let strayed (cause : StrayCause) : State :=
      s.setPort p { (s.port p).placedAll [.stray id cause] with inbound := rest }
    ((s.port p).inbound = .ack id :: rest →
      (s.namedTicket id = none → exec (.ack p) s = .next (strayed .unknown)) ∧
      (∀ r h, s.namedTicket id = some r → (s.record r).body.held? = some h → h.owner ≠ p →
        exec (.ack p) s = .next (strayed .notOwner)) ∧
      (∀ r h, s.namedTicket id = some r → h.owner = p →
        ((s.record r).body = .pending h ∨ ∃ c, (s.record r).body = .offered h c none) →
        exec (.ack p) s = .next (strayed .notSent))) ∧
    ((s.port p).inbound = .cancel id :: rest →
      (s.namedTicket id = none → exec (.cancel p) s = .next (strayed .unknown)) ∧
      (∀ r h, s.namedTicket id = some r → (s.record r).body.held? = some h → h.owner ≠ p →
        exec (.cancel p) s = .next (strayed .notOwner)))

/-- A PING at the head of an OPEN port with room is answered by a PONG with its tag, the device state, the
generation and the free ticket count (R131), and nothing else changes. -/
def Obligations.PingIsAnsweredByPong : Prop :=
  ∀ (s : State) (p : PortNo) (tag : Byte) (rest : List InMsg),
    (s.port p).state = .opened → (s.port p).answers < 8 → (s.port p).inbound = .ping tag :: rest →
    exec (.ping p) s = .next (s.setPort p
      { (s.port p).placedAll [.pong tag s.ctu.device s.rtb.generation (freeTickets s)] with
        inbound := rest })

/-- The head outbound message of an OPEN port leaves the queue as one frame on the line (R123, R133; the
line is the model's view of the pin, log 10). When it is the RELEASE of an unsent OFFERED ticket, the
ticket is sent, its offer deadline now plus the offer limit (R61); any other message changes only the
port. QLn_TX carries that frame byte by byte and, from its closing delimiter on, what it carries once the
message has left; with nothing to send, on a CLOSED port, in reset and in INIT it carries delimiters (R123,
R133, R135, R137, R139). The content of that frame is the kind code, the flags byte with OVERRUN in bit 0, the body and the
check byte of the message (R124, R192). -/
def Obligations.LeavingMessageIsSent : Prop :=
  (∀ (s : State) (p : PortNo), (held s = true ∨ s.ctu.device = .init ∨ (s.port p).state = .closed ∨
    (s.port p).outbound = []) → ∀ k, txByte s p k = 0xB5#8) ∧
  ∀ (s : State) (p : PortNo) (m : OutMsg) (rest : List OutMsg),
    (s.port p).state = .opened → (s.port p).outbound = m :: rest →
    let left : State :=
      s.setPort p { s.port p with outbound := rest, line := .sent (lineFrame m.content) }
    (∀ k tag label dest ident h c, m.body = .release k tag label dest ident →
      s.record k.number = ⟨k.serial, .offered h c none⟩ →
      exec (.leavingTheLink p) s = .next (left.setRecord k.number
        ⟨k.serial, .offered h c (some (s.ctu.now + s.ctu.offerLimit.setWidth 32))⟩)) ∧
    ((∀ k tag label dest ident, m.body ≠ .release k tag label dest ident) →
      exec (.leavingTheLink p) s = .next left) ∧
    (held s = false → s.ctu.device ≠ .init →
      (∀ k, k < (lineFrame m.content).length → (lineFrame m.content)[k]? = some (txByte s p k)) ∧
      ∀ k, txByte s p ((lineFrame m.content).length - 1 + k) = txByte left p k) ∧
    crc8 m.content = 0#8 ∧
    m.content.dropLast =
      let id (k : TicketId) : List Byte := be16 (BitVec.ofNat 16 (k.serial.toNat * 256 + k.number.val))
      let state (d : DeviceState) : Byte := match d with
        | .init => 0#8
        | .standby => 1#8
        | .active => 2#8
        | .fallback => 3#8
      let message (code : Byte) (body : List Byte) : List Byte :=
        [code, if m.overrun then 0x01#8 else 0x00#8] ++ body
      match m.body with
      | .route tag label dest ident gen =>
        message 0x20#8 ([tag] ++ be16 label ++ [dest] ++ be24 ident ++ [gen])
      | .defer tag k due gen => message 0x21#8 ([tag] ++ id k ++ be32 due ++ [gen])
      | .drop tag reason label => message 0x22#8 ([tag, match reason with
          | .rule => 1#8
          | .length => 2#8
          | .pace => 3#8
          | .paceHeld => 4#8
          | .noTicket => 5#8
          | .noDestination => 6#8] ++ be16 label)
      | .noMatch tag => message 0x23#8 [tag]
      | .refuse tag reason => message 0x24#8 [tag, match reason with
          | .notActive => 1#8
          | .malformed => 2#8]
      | .release k tag label dest ident =>
        message 0x25#8 (id k ++ [tag] ++ be16 label ++ [dest] ++ be24 ident)
      | .withdrawn k tag reason => message 0x26#8 (id k ++ [tag, match reason with
          | .removed => 1#8
          | .expired => 2#8
          | .amended => 3#8
          | .fallback => 4#8
          | .stopped => 5#8
          | .noDestination => 6#8])
      | .superseded k tag => message 0x27#8 (id k ++ [tag])
      | .cancelled w => message 0x28#8 (be16 w)
      | .tooLate w => message 0x29#8 (be16 w)
      | .stray w cause => message 0x2A#8 (be16 w ++ [match cause with
          | .unknown => 1#8
          | .notOwner => 2#8
          | .notSent => 3#8])
      | .pong tag d gen free => message 0x2B#8 ([tag, state d] ++ be16 gen ++ [BitVec.ofNat 8 free])
      | .portUp d gen => message 0x2C#8 ([state d] ++ be16 gen)

/-- A handle names the entry of a slot exactly when it is the slot's era times 512 plus its number and the
slot is not FREE (R4); a ticket id names the ticket of a record exactly when it is the record's serial
times 256 plus its number and the record is not FREE (R52). -/
def Obligations.NamesAreCurrent : Prop :=
  (∀ (s : State) (w : Half) (i : SlotNo), s.named w = some i ↔
    w.toNat = (s.slot i).era.toNat * 512 + i.val ∧ (s.slot i).body.isFree = false) ∧
  (∀ (s : State) (w : Half) (r : RecNo), s.namedTicket w = some r ↔
    w.toNat = (s.record r).serial.toNat * 256 + r.val ∧ (s.record r).body.isFree = false)

/-! ### Lookup -/

/-- A port is eligible when it is OPEN, its inbound head is a LOOKUP and it holds fewer than 8 answers
(R26). The arbiter grants the eligible port nearest at or after the pointer, QP7 wrapping to QP0; the
pointer moves past it and its LOOKUP leaves the queue; with no port eligible nothing changes (R27). -/
def Obligations.ArbiterGrantsFirstFromPointer : Prop :=
  ∀ s : State,
    (∀ p, eligible s p = true ↔ (s.port p).state = .opened ∧
      (∃ tag ident kind length rest, (s.port p).inbound = .lookup tag ident kind length :: rest) ∧
      (s.port p).answers < 8) ∧
    (∀ p, granted s = some p ↔ eligible s p = true ∧
      ∀ q, eligible s q = true → (p - s.pointer).val ≤ (q - s.pointer).val) ∧
    (∀ p, granted s = some p → ∃ t, exec .lookupEvent s = .next t ∧ t.pointer = p + 1 ∧
      (t.port p).inbound = (s.port p).inbound.tail) ∧
    ((∀ p, eligible s p = false) → exec .lookupEvent s = .next s)

/-- The matched entry is a LIVE entry that matches, before which no matching LIVE entry comes in order-key
order; there is none exactly when no LIVE entry matches (R15, R33, R34). -/
def Obligations.SearchFindsLeastKey : Prop :=
  ∀ (s : State) (q : Query),
    (∀ i l, search s q = some (i, l) → (s.slot i).body = .live l ∧ Matches s q l ∧
      ∀ j m, (s.slot j).body = .live m → Matches s q m → ¬ KeyBefore m.entry.key l.entry.key) ∧
    (search s q = none ↔ ∀ j m, (s.slot j).body = .live m → ¬ Matches s q m)

/-- The decision on a matched entry: the length, the disposition, the destinations, and the pacing cases
(R37 to R43). The destinations are the entry's set less the asking segment, unless REFLECT, and less
every CLOSED port's segment (R39). -/
def Obligations.DecisionFollowsRules : Prop :=
  ∀ (s : State) (q : Query) (l : LiveEntry),
    let a := l.entry.action
    let dest := destinations s q.source a
    let admitted := a.lengthMin.toNat ≤ q.length.toNat ∧ q.length.toNat ≤ a.lengthMax.toNat
    let forwarded := admitted ∧ a.disposition = .forward ∧ dest ≠ 0#8
    let owned (b : TicketBody → Bool) := ∃ k, l.ticket = some k ∧ b (s.record k.number).body = true
    let paced := forwarded ∧ a.paceInterval ≠ 0#16
    (∀ p, SegSet.has dest p = true ↔ SegSet.has a.destinations p = true ∧
      (a.flags.reflect = true ∨ p ≠ q.source) ∧ (s.port p).state = .opened) ∧
    (¬ admitted → decideEntry s q l = .drop .length 0#8) ∧
    (admitted → a.disposition = .discard → decideEntry s q l = .drop .rule 0#8) ∧
    (admitted → a.disposition = .forward → dest = 0#8 → decideEntry s q l = .drop .noDestination 0#8) ∧
    (forwarded → a.paceInterval = 0#16 → decideEntry s q l = .route dest false) ∧
    (paced → a.paceMode = .drop → l.window = .opened → decideEntry s q l = .route dest true) ∧
    (paced → a.paceMode = .drop → l.window = .shut → decideEntry s q l = .drop .pace dest) ∧
    (paced → a.paceMode = .defer → ∀ k, l.ticket = some k →
      (s.record k.number).body.isPending = true → decideEntry s q l
        = if hasQuota s q.source then .supersede k.number dest else .drop .noTicket dest) ∧
    (paced → a.paceMode = .defer → ¬ owned TicketBody.isPending → l.window = .opened →
      decideEntry s q l = .route dest true) ∧
    (paced → a.paceMode = .defer → owned TicketBody.isOffered → l.window = .shut →
      decideEntry s q l = .drop .paceHeld dest) ∧
    (paced → a.paceMode = .defer → l.ticket = none → l.window = .shut →
      (∀ r rest, s.rlu.freeOrder = r :: rest → decideEntry s q l
        = if hasQuota s q.source then .create r dest else .drop .noTicket dest) ∧
      (s.rlu.freeOrder = [] → decideEntry s q l = .drop .noTicket dest)) ∧
    ((s.port q.source).state = .opened →
      hasQuota s q.source = decide (load s q.source < (s.port q.source).quota))

/-- A granted LOOKUP with a kind other than DATA and POLL or a length above 2047 is answered REFUSE
MALFORMED; a well-formed one REFUSE NOT_ACTIVE in STANDBY, and NONE in ACTIVE and FALLBACK where no entry
matches. Nothing is claimed (R31, R32, R34). -/
def Obligations.LookupRefusedOrUnmatched : Prop :=
  ∀ (s : State) (p : PortNo) (tag : Byte) (ident : Ident) (kind : Byte) (length : Half) (rest : List InMsg),
    granted s = some p → (s.port p).inbound = .lookup tag ident kind length :: rest →
    ((kind ≠ 1#8 ∧ kind ≠ 2#8 ∨ 2047 < length.toNat) →
      exec .lookupEvent s = .next (s.lookupAnswered p (.refuse tag .malformed))) ∧
    ((kind = 1#8 ∨ kind = 2#8) → length.toNat ≤ 2047 →
      (s.ctu.device = .standby →
        exec .lookupEvent s = .next (s.lookupAnswered p (.refuse tag .notActive))) ∧
      (s.ctu.device = .active ∨ s.ctu.device = .fallback → search s ⟨p, ident, kind, length⟩ = none →
        exec .lookupEvent s = .next (s.lookupAnswered p (.noMatch tag))))

/-- A DROP that spends no SINGLE entry counts the match on the matched entry alone, carries its label, and
raises TICKET_REFUSED exactly for NO_TICKET (R35, R37 to R43, R45, R48). -/
def Obligations.LookupDropKeepsEntry : Prop :=
  ∀ (s : State) (q : Query) (tag : Byte) (i : SlotNo) (l : LiveEntry) (reason : DropReason)
    (dest : SegSet), Evaluated s q tag i l → decideEntry s q l = .drop reason dest →
    (reason = .rule → l.entry.action.flags.single = false) →
    exec .lookupEvent s = .next { (s.lookupAnswered q.source
        (.drop tag reason l.entry.action.label)).setSlot i
          ⟨(s.slot i).era, .live (l.counted s.ctu.now)⟩ with
      evu := if reason = .noTicket then { s.evu with flags := s.evu.flags ||| 32#11 } else s.evu }

/-- A ROUTE from an entry without SINGLE counts the match, shuts the window for one pace interval when
the entry is paced, and answers with the entry's label, the destinations, the identifier out and the low
byte of the generation (R35, R40, R41, R47). -/
def Obligations.LookupRoutes : Prop :=
  ∀ (s : State) (q : Query) (tag : Byte) (i : SlotNo) (l : LiveEntry) (dest : SegSet) (paced : Bool),
    Evaluated s q tag i l → decideEntry s q l = .route dest paced →
    l.entry.action.flags.single = false →
    exec .lookupEvent s = .next ((s.lookupAnswered q.source
        (.route tag l.entry.action.label dest (l.entry.action.rewrite.getD q.ident)
          (s.rtb.generation.setWidth 8))).setSlot i
      ⟨(s.slot i).era, .live (if paced then (l.counted s.ctu.now).paced s.ctu.now
        else l.counted s.ctu.now)⟩)

/-- A SINGLE entry answered ROUTE, or DROP reason RULE, is spent in the lookup event: SINGLE_SPENT is
raised, and the counted entry goes to RETIRED with cause SPENT, or to FREE under the next era with QUIET,
or, owning a ticket, to RETIRING (R45, R80, R81). The rules say so of an OFFERED ticket, the only one such
an entry owns in a run; that it goes to RETIRING with a ticket in any state is the model's choice (log 15). -/
def Obligations.LookupSpendsSingle : Prop :=
  ∀ (s : State) (q : Query) (tag : Byte) (i : SlotNo) (l : LiveEntry) (b : OutBody) (e : Entry),
    Evaluated s q tag i l → l.entry.action.flags.single = true →
    ((decideEntry s q l = .drop .rule 0#8 ∧ b = .drop tag .rule l.entry.action.label ∧
        e = (l.counted s.ctu.now).entry) ∨
      ∃ dest paced, decideEntry s q l = .route dest paced ∧
        b = .route tag l.entry.action.label dest (l.entry.action.rewrite.getD q.ident)
          (s.rtb.generation.setWidth 8) ∧
        e = (if paced then (l.counted s.ctu.now).paced s.ctu.now else l.counted s.ctu.now).entry) →
    let spent (sl : Slot) : State := { (s.lookupAnswered q.source b).setSlot i sl with
      evu := { s.evu with flags := s.evu.flags ||| 16#11 } }
    (l.ticket = none →
      exec .lookupEvent s = .next (spent (if l.entry.action.flags.quiet
        then ⟨(s.slot i).era + 1#6, .free⟩ else ⟨(s.slot i).era, .retired e .spent⟩))) ∧
    (∀ k, l.ticket = some k →
      exec .lookupEvent s = .next (spent ⟨(s.slot i).era, .retiring e .spent k⟩))

/-- A DEFER by creation takes the record at the front of the free order: its serial increments, it is
PENDING for the asking port with the entry's window-open tick as its due tick, it joins the release list,
and the entry holds its id; a SINGLE entry goes to RETIRING with cause SPENT and SINGLE_SPENT is raised
(R43, R46, R54, R57). -/
def Obligations.LookupDefersByCreation : Prop :=
  ∀ (s : State) (q : Query) (tag : Byte) (i : SlotNo) (l : LiveEntry) (r : RecNo) (dest : SegSet),
    Evaluated s q tag i l → decideEntry s q l = .create r dest →
    let id : TicketId := ⟨(s.record r).serial + 1#4, r⟩
    let due := l.entry.windowOpen
    let entry := l.counted s.ctu.now
    ∃ t, exec .lookupEvent s = .next t ∧
      (∀ x, t.record x = if x = r
        then ⟨id.serial, .pending ⟨s.handleOf i, q.source, tag, q.ident, due⟩⟩ else s.record x) ∧
      t.rlu.freeOrder = s.rlu.freeOrder.tail ∧
      t.rlu.releaseList = joinReleaseList s.ctu.now t.dueOf r s.rlu.releaseList ∧
      (∀ j, t.slot j = if j = i then ⟨(s.slot i).era,
          if l.entry.action.flags.single then .retiring entry.entry .spent id
          else .live { entry with ticket := some id }⟩ else s.slot j) ∧
      t.qp = (s.lookupAnswered q.source (.defer tag id due (s.rtb.generation.setWidth 8))).qp ∧
      t.pointer = q.source + 1 ∧
      t.evu = (if l.entry.action.flags.single then { s.evu with flags := s.evu.flags ||| 16#11 }
        else s.evu) ∧ RestKept s t

/-- A DEFER by supersede hands the PENDING ticket on: a SUPERSEDED notice with the old id and tag to the
old owner, then the next serial, the asking port, tag and identifier in the record, the new id in the
entry, and a DEFER with the unchanged due tick; the ticket keeps its place in the release list (R42, R49,
R58). -/
def Obligations.LookupDefersBySupersede : Prop :=
  ∀ (s : State) (q : Query) (tag : Byte) (i : SlotNo) (l : LiveEntry) (r : RecNo) (dest : SegSet)
    (h : Held), Evaluated s q tag i l → decideEntry s q l = .supersede r dest →
    (s.record r).body = .pending h → h.handle.slot = i → l.entry.action.flags.single = false →
    let id : TicketId := ⟨(s.record r).serial + 1#4, r⟩
    let notice : OutBody := .superseded (s.ticketId r) h.tag
    let answer : OutBody := .defer tag id h.due (s.rtb.generation.setWidth 8)
    ∃ t, exec .lookupEvent s = .next t ∧
      (∀ x, t.record x = if x = r
        then ⟨id.serial, .pending ⟨h.handle, q.source, tag, q.ident, h.due⟩⟩ else s.record x) ∧
      t.rlu.freeOrder = s.rlu.freeOrder ∧ t.rlu.releaseList = s.rlu.releaseList ∧
      (∀ j, t.slot j = if j = i then ⟨(s.slot i).era,
        .live { l.counted s.ctu.now with ticket := some id }⟩ else s.slot j) ∧
      (∀ p, t.port p = { (s.port p).placedAll
          ((if p = h.owner then [notice] else []) ++ (if p = q.source then [answer] else [])) with
        inbound := if p = q.source then (s.port p).inbound.tail else (s.port p).inbound }) ∧
      t.pointer = q.source + 1 ∧ t.evu = s.evu ∧ RestKept s t

/-- A ticket joins the release list after every ticket whose due tick is at or before its own and ahead of
every ticket whose due tick is later, where the list is in due-tick order (R54). -/
def Obligations.ReleaseListJoinsByDueTick : Prop :=
  ∀ (now : Tick) (due : RecNo → Tick) (r : RecNo) (list : List RecNo),
    list.Pairwise (fun a b => signedAhead now (due a) ≤ signedAhead now (due b)) →
    ∃ front back, list = front ++ back ∧ joinReleaseList now due r list = front ++ r :: back ∧
      (∀ x ∈ front, signedAhead now (due x) ≤ signedAhead now (due r)) ∧
      (∀ x ∈ back, signedAhead now (due r) < signedAhead now (due x)) ∧
      (joinReleaseList now due r list).Pairwise
        (fun a b => signedAhead now (due a) ≤ signedAhead now (due b))

/-- PROBE foretells the lookup: in ACTIVE and FALLBACK, what PROBE would report for a granted LOOKUP's
values agrees with the answer that the lookup event then places (R50, R161). -/
def Obligations.ProbeForetellsLookup : Prop :=
  ∀ (s t : State) (p : PortNo) (tag : Byte) (ident : Ident) (kind : Byte) (length : Half)
    (rest : List InMsg),
    s.ctu.device = .active ∨ s.ctu.device = .fallback → granted s = some p →
    (s.port p).inbound = .lookup tag ident kind length :: rest → exec .lookupEvent s = .next t →
    ∃ m, (t.port p).outbound.getLast? = some m ∧
      ProbeAgrees (probeResult s ⟨p, ident, kind, length⟩) m.body

/-! ### The host port -/

/-- CS# falling captures the status word and starts shifting out it, the held response and the check byte
over both, which the division leaves at 0, most significant bit first and then 0xFF; MISO is high-impedance
outside a transaction. The MOSI bits are read most significant first, and the bits of a last partial byte
are discarded (R141); in reset the transaction is ignored (R141, R143, R147, R150).
The phase and the run of bytes held whole are the model's (logs 8 and 16). -/
def Obligations.SpiOpenShiftsStatusAndResponse : Prop :=
  (∀ (mosi : List Byte) (partialByte : List Bool), partialByte.length < 8 →
    decodeMosiBits (mosi.flatMap
      (fun b => [7, 6, 5, 4, 3, 2, 1, 0].map (fun n => b.getLsbD n)) ++ partialByte) = decodeMosi mosi) ∧
  ∀ s : State, s.hpt.phase = .idle → (∀ k, misoPin s k = none) ∧
    (held s = false → ∃ miso, exec .spiTransactionOpen s
        = .next { s with hpt := { s.hpt with phase := .selected, miso := miso } } ∧
      (∀ k, misoPin { s with hpt := { s.hpt with phase := .selected, miso := miso } } k
        = some ((miso.getD (k / 8) 0xFF#8).getLsbD (7 - k % 8))) ∧
      miso.dropLast = be16 (statusWord s) ++
        [s.hpt.response.seq, s.hpt.response.result.code, countByte s.hpt.response.data.length] ++
        s.hpt.response.data ∧
      miso.length = s.hpt.response.data.length + 6 ∧ crc8 miso = 0#8) ∧
    (held s = true → exec .spiTransactionOpen s
      = .next { s with hpt := { s.hpt with phase := .ignored, miso := [] } })

/-- The status word: device state in bits 15 and 14, transaction state in bits 13 and 12, ALERT# low in bit
11, NOTE# low in bit 10, the free-slot count in bits 9 to 0; a line is low exactly while a pending kind
has its level (R149, R181). -/
def Obligations.StatusWordFields : Prop :=
  ∀ s : State,
    (statusWord s).toNat / 16384 = s.ctu.device.code.toNat ∧
    (statusWord s).toNat / 4096 % 4 = s.edu.txn.code ∧
    (statusWord s).getLsbD 11 = alertLow s ∧ (statusWord s).getLsbD 10 = noteLow s ∧
    (statusWord s).toNat % 1024 = freeCount s ∧ freeCount s ≤ 512 ∧
    (alertLow s = true ↔ ∃ k : Fin 11, s.evu.flags.getLsbD k.val = true ∧ s.evu.levels[k.val] = .alert) ∧
    (noteLow s = true ↔ ∃ k : Fin 11, s.evu.flags.getLsbD k.val = true ∧ s.evu.levels[k.val] = .note)

/-- The closing event tests a frame in order: incomplete, too long a parameter length, the check byte, INIT
for any code but NOP's, an unknown code, the parameter length. Each failure gives its result and changes
nothing but the response, with HOST_FRAME_ERROR raised for the first three (R145);
a block of more than 60 parameter bytes stands for its length byte (log 6). A transaction that the
host port does not take places no response (R150). -/
def Obligations.HostFrameTestsInOrder : Prop :=
  ∀ s : State,
    let broken (t : State) : State := { t with evu := { t.evu with flags := t.evu.flags ||| 1024#11 } }
    let unseen : State := { s with hpt := { s.hpt with phase := .idle, miso := [] } }
    (∀ mosi, spiUnseen s = false → frameComplete mosi = false →
      exec (.frameError mosi) s = .next (broken (s.answered (mosi.getD 0 0#8) .frameError []))) ∧
    (∀ (c : HostCmd) (f : HostFrame), spiUnseen s = false →
      (60 < f.params.length → exec (c.instr f) s = .next (broken (s.answered f.seq .frameError []))) ∧
      (f.params.length ≤ 60 → frameChecks (hostCode c) f = false →
        exec (c.instr f) s = .next (broken (s.answered f.seq .badCheck []))) ∧
      (f.params.length ≤ 60 → frameChecks (hostCode c) f = true →
        (s.ctu.device = .init → c ≠ .nop → exec (c.instr f) s = .next (s.answered f.seq .notReady [])) ∧
        (s.ctu.device ≠ .init ∨ c = .nop → f.params.length ≠ paramLength c →
          exec (c.instr f) s = .next (s.answered f.seq .badParam [])))) ∧
    (∀ (code : Byte) (f : HostFrame), spiUnseen s = false → hostCmdOf code = none →
      f.params.length ≤ 60 →
      (frameChecks code f = false →
        exec (.badCommand code f) s = .next (broken (s.answered f.seq .badCheck []))) ∧
      (frameChecks code f = true → s.ctu.device = .init →
        exec (.badCommand code f) s = .next (s.answered f.seq .notReady [])) ∧
      (frameChecks code f = true → s.ctu.device ≠ .init →
        exec (.badCommand code f) s = .next (s.answered f.seq .badCommand []))) ∧
    (spiUnseen s = true → ∀ (c : HostCmd) (f : HostFrame) (code : Byte) (mosi : List Byte),
      exec (c.instr f) s = .next unseen ∧ exec (.frameError mosi) s = .next unseen ∧
      (hostCmdOf code = none → exec (.badCommand code f) s = .next unseen))

/-- NOP is answered OK with no data in every device state, INIT included, and changes nothing but the
response (R151). -/
def Obligations.NopAnswersOk : Prop :=
  ∀ (s : State) (f : HostFrame), spiUnseen s = false → f.params = [] →
    frameChecks 0x00#8 f = true → exec (.nop f) s = .next (s.answered f.seq .ok [])

/-- IDENTIFY is answered OK with the 10 fixed bytes of the part in STANDBY, ACTIVE and FALLBACK and every
transaction state, and NOT_READY in INIT (R152). -/
def Obligations.IdentifyReportsPart : Prop :=
  ∀ (s : State) (f : HostFrame), spiUnseen s = false → f.params = [] → frameChecks 0x01#8 f = true →
    (s.ctu.device ≠ .init → exec (.identify f) s = .next (s.answered f.seq .ok
      (be16 0x0F3A#16 ++ be16 0x8520#16 ++ [0x01#8] ++ be16 512#16 ++ [96#8, 8#8, 16#8]))) ∧
    (s.ctu.device = .init → exec (.identify f) s = .next (s.answered f.seq .notReady []))

/-- TABLE_SUMMARY is answered OK with 21 bytes: the slots in each state, which sum to 512, the generation,
the next serial or 4,294,967,295 while exhausted, the tickets in each state, which sum to 96, and now
(R153). -/
def Obligations.TableSummaryCounts : Prop :=
  ∀ (s : State) (f : HostFrame), Taken .tableSummary f s →
    ∃ free live retiring retired pending offered idle : Nat,
      free = s.rtb.slots.toList.countP (fun sl => sl.body.isFree) ∧
      live = s.rtb.slots.toList.countP (fun sl => sl.body.isLive) ∧
      retiring = s.rtb.slots.toList.countP (fun sl => sl.body.isRetiring) ∧
      retired = s.rtb.slots.toList.countP (fun sl => sl.body.isRetired) ∧
      free + live + retiring + retired = 512 ∧
      pending = s.rlu.records.toList.countP (fun r => r.body.isPending) ∧
      offered = s.rlu.records.toList.countP (fun r => r.body.isOffered) ∧
      idle = s.rlu.records.toList.countP (fun r => r.body.isFree) ∧
      pending + offered + idle = 96 ∧
      exec (.tableSummary f) s = .next (s.answered f.seq .ok
        (be16 (BitVec.ofNat 16 free) ++ be16 (BitVec.ofNat 16 live) ++ be16 (BitVec.ofNat 16 retiring) ++
          be16 (BitVec.ofNat 16 retired) ++ be16 s.rtb.generation ++
          be32 (if s.rtb.exhausted then 4294967295#32 else s.rtb.nextSerial) ++
          [countByte pending, countByte offered, countByte idle] ++ be32 s.ctu.now))

/-! ### Reading -/

/-- READ_ENTRY, READ_TICKET and READ_PORT report one slot, record or port, and PROBE the evaluation for one
source port, identifier, kind and length, each item at its place in the data (R10, R50, R154, R159, R160,
R161, R189), and all change nothing but the response; a number beyond the last is BAD_PARAM (R196). A FREE
slot gives 2 bytes, any other 54 bytes with its definition and runtime images. A PROBE reports the decision
on the matched entry, REFUSE MALFORMED for a bad form and NONE for no match; in STANDBY it evaluates as
ACTIVE would. -/
def Obligations.ReadsReportOneItem : Prop :=
  (∀ (s : State) (f : HostFrame), Taken .readEntry f s →
    (511 < (halfAt f.params 0).toNat →
      exec (.readEntry f) s = .next (s.answered f.seq .badParam [])) ∧
    (∀ i : SlotNo, (halfAt f.params 0).toNat = i.val →
      ((s.slot i).body = .free → exec (.readEntry f) s
        = .next (s.answered f.seq .ok [0#8, (s.slot i).era.setWidth 8])) ∧
      (∀ e, (s.slot i).body.entry? = some e → ∃ data,
        exec (.readEntry f) s = .next (s.answered f.seq .ok data) ∧ data.length = 54 ∧
        byteAt data 0 = byteAt data 36 ∧ byteAt data 1 = (s.slot i).era.setWidth 8 ∧
        DefinitionAt data 2 e.definition ∧ RuntimeAt data 34 s i e))) ∧
  (∀ (s : State) (f : HostFrame), Taken .readTicket f s →
    (95 < (byteAt f.params 0).toNat →
      exec (.readTicket f) s = .next (s.answered f.seq .badParam [])) ∧
    (∀ r : RecNo, (byteAt f.params 0).toNat = r.val → ∃ data,
      exec (.readTicket f) s = .next (s.answered f.seq .ok data) ∧ data.length = 19 ∧
      (halfAt data 1).toNat = (s.record r).serial.toNat * 256 + r.val ∧
      match (s.record r).body with
      | .free => data = [0#8] ++ data.extract 1 3 ++ [0xFF#8, 0xFF#8, 0xFF#8] ++ List.replicate 13 0#8
      | .pending h => byteAt data 0 = 1#8 ∧ HeldAt data h false none
      | .offered h cancelRequested deadline =>
        byteAt data 0 = 2#8 ∧ HeldAt data h cancelRequested deadline)) ∧
  (∀ (s : State) (f : HostFrame), Taken .readPort f s →
    (7 < (byteAt f.params 0).toNat → exec (.readPort f) s = .next (s.answered f.seq .badParam [])) ∧
    (∀ p : PortNo, (byteAt f.params 0).toNat = p.val →
      exec (.readPort f) s = .next (s.answered f.seq .ok
        [if (s.port p).state = .opened then 1#8 else 0#8, countByte (s.port p).quota,
          countByte (s.port p).inbound.length, countByte (s.port p).answers,
          countByte (s.port p).notices, countByte (ticketsOwned s p),
          countByte (ticketsOwned s p + (s.port p).countedNotices),
          if (s.port p).overrun then 1#8 else 0#8]))) ∧
  (∀ (s : State) (f : HostFrame), Taken .probe f s →
    (7 < (byteAt f.params 0).toNat → exec (.probe f) s = .next (s.answered f.seq .badParam [])) ∧
    (∀ p : PortNo, (byteAt f.params 0).toNat = p.val → ∃ data,
      let q : Query := ⟨p, identAt f.params 1, byteAt f.params 4, halfAt f.params 5⟩
      let formed := (q.kind = 1#8 ∨ q.kind = 2#8) ∧ q.length.toNat ≤ 2047
      exec (.probe f) s = .next (s.answered f.seq .ok data) ∧ data.length = 19 ∧
      byteAt data 0 = (match s.ctu.device with
        | .init => 0#8
        | .standby => 1#8
        | .active => 2#8
        | .fallback => 3#8) ∧
      halfAt data 17 = s.rtb.generation ∧
      (¬ formed → ProbeAt data 0x24#8 2#8 0xFFFF#16 0#16 0#8 0#24 0xFFFF#16 0#32) ∧
      (formed → search s q = none → ProbeAt data 0x23#8 0#8 0xFFFF#16 0#16 0#8 0#24 0xFFFF#16 0#32) ∧
      (formed → ∀ i l, search s q = some (i, l) → IsHandle (halfAt data 3) s i ∧
        let handle := halfAt data 3
        let label := l.entry.action.label
        let out := l.entry.action.rewrite.getD q.ident
        (∀ reason dest, decideEntry s q l = .drop reason dest →
          ProbeAt data 0x22#8 reason.code handle label dest 0#24 0xFFFF#16 0#32) ∧
        (∀ dest paced, decideEntry s q l = .route dest paced →
          ProbeAt data 0x20#8 0#8 handle label dest out 0xFFFF#16 0#32) ∧
        (∀ r dest, decideEntry s q l = .create r dest →
          ProbeAt data 0x21#8 0#8 handle label dest out 0xFFFF#16 l.entry.windowOpen) ∧
        (∀ r dest h, decideEntry s q l = .supersede r dest → (s.record r).body = .pending h →
          ProbeAt data 0x21#8 0#8 handle label dest out
            (BitVec.ofNat 16 (((s.record r).serial + 1#4).toNat * 256 + r.val)) h.due)))) ∧
  (∀ (s : State) (q : Query), s.ctu.device = .standby →
    search s q = search { s with ctu := { s.ctu with device := .active } } q ∧
    probeResult s q = probeResult { s with ctu := { s.ctu with device := .active } } q)

/-- WALK_FIRST returns the LIVE entry with the smallest order key and WALK_NEXT the one with the smallest
key above the cursor, dormant ones included, with the generation, the dormant marker and both images, 55
bytes each item at its place (R189), and sets the cursor to its key. END leaves WALK_FIRST's cursor absent and WALK_NEXT's as it was; an
absent cursor is WRONG_STATE (R155 to R157). -/
def Obligations.WalkReturnsNextKey : Prop :=
  ∀ (s : State) (f : HostFrame),
    let reply (i : SlotNo) (l : LiveEntry) : List Byte :=
      be16 s.rtb.generation ++
        [if s.ctu.device = .fallback ∧ l.entry.action.flags.essential = false then 1#8 else 0#8] ++
        l.entry.definition.image ++ runtimeImage ⟨(s.slot i).era, i⟩ (.live l) l.entry
    let withCursor (k : Option OrderKey) : State := { s with hpt := { s.hpt with cursor := k } }
    (∀ i l, (s.slot i).body = .live l → (reply i l).length = 55 ∧
      DefinitionAt (reply i l) 3 l.entry.definition ∧ RuntimeAt (reply i l) 35 s i l.entry) ∧
    (Taken .walkFirst f s →
      (∀ i l, NextInWalk s (fun _ => True) i l → exec (.walkFirst f) s
        = .next ((withCursor (some l.entry.key)).answered f.seq .ok (reply i l))) ∧
      ((∀ j, (s.slot j).body.isLive = false) → exec (.walkFirst f) s
        = .next ((withCursor none).answered f.seq .endOfList []))) ∧
    (Taken .walkNext f s →
      (s.hpt.cursor = none → exec (.walkNext f) s = .next (s.answered f.seq .wrongState [])) ∧
      (∀ k, s.hpt.cursor = some k →
        (∀ i l, NextInWalk s (KeyBefore k) i l → exec (.walkNext f) s
          = .next ((withCursor (some l.entry.key)).answered f.seq .ok (reply i l))) ∧
        ((∀ j m, (s.slot j).body = .live m → ¬ KeyBefore k m.entry.key) → exec (.walkNext f) s
          = .next (s.answered f.seq .endOfList []))))

/-- LIST_RETIRED names the RETIRED slots at or above the start slot in rising number, up to eight, each
with its handle, cause and final count, and answers END where there is none. COLLECT sends the slot of
the RETIRED entry its handle names to FREE under the next era, and answers NOT_FOUND, changing nothing,
for any other handle (R86, R88). -/
def Obligations.RetiredAreListedAndCollected : Prop :=
  (∀ (s : State) (f : HostFrame), Taken .listRetired f s →
    (511 < (halfAt f.params 0).toNat →
      exec (.listRetired f) s = .next (s.answered f.seq .badParam [])) ∧
    (∀ start : SlotNo, (halfAt f.params 0).toNat = start.val →
      ((∀ i, start ≤ i → (s.slot i).body.isRetired = false) →
        exec (.listRetired f) s = .next (s.answered f.seq .endOfList [])) ∧
      ((∃ i, start ≤ i ∧ (s.slot i).body.isRetired = true) →
        ∃ slots : List SlotNo, slots ≠ [] ∧ slots.length ≤ 8 ∧ slots.Pairwise (· < ·) ∧
          (∀ i ∈ slots, start ≤ i ∧ (s.slot i).body.isRetired = true) ∧
          (∀ i, start ≤ i → (s.slot i).body.isRetired = true → i ∈ slots ∨
            slots.length = 8 ∧ ∀ j ∈ slots, j < i) ∧
          exec (.listRetired f) s = .next (s.answered f.seq .ok
            (countByte slots.length :: slots.flatMap (retiredTriple s)))))) ∧
  (∀ (s : State) (i : SlotNo) (e : Entry) (cause : RetireCause),
    (s.slot i).body = .retired e cause → retiredTriple s i
      = be16 (Handle.word ⟨(s.slot i).era, i⟩) ++ [cause.code] ++ be16 e.matchCount) ∧
  (∀ (s : State) (f : HostFrame), Taken .collect f s →
    (∀ i, s.named (halfAt f.params 0) = some i → (s.slot i).body.isRetired = true →
      exec (.collect f) s
        = .next ((s.setSlot i ⟨(s.slot i).era + 1#6, .free⟩).answered f.seq .ok []) ∧
      freeCount (s.setSlot i ⟨(s.slot i).era + 1#6, .free⟩) = freeCount s + 1) ∧
    ((∀ i, s.named (halfAt f.params 0) = some i → (s.slot i).body.isRetired = false) →
      exec (.collect f) s = .next (s.answered f.seq .notFound [])))

/-! ### Control -/

/-- START, RESUME, KEEPALIVE, SET_TIMEBASE, SET_SUPERVISION and SET_OFFER_LIMIT, each by the device state
and the value given (R75, R165, R166, R168, R171, R173 to R175). A started timer expires at now plus the
window, and a window of 0 starts none. -/
def Obligations.ControlCommands : Prop :=
  ∀ (s : State) (f : HostFrame),
    let c := s.ctu
    let started (window : BitVec 16) : Option Tick :=
      if window = 0#16 then none else some (c.now + window.setWidth 32)
    let moved (c' : ControlUnit) (result : ResultCode) : Host.Outcome State Fault Refusal :=
      .next (State.answered { s with ctu := c' } f.seq result [])
    let value := halfAt f.params 0
    (Taken .start f s → exec (.start f) s =
      if c.device = .standby then moved { c with device := .active, timer := started c.window } .ok
      else moved c .wrongState) ∧
    (Taken .resume f s → exec (.resume f) s =
      if c.device = .fallback then moved { c with device := .active, timer := started c.window } .ok
      else moved c .wrongState) ∧
    (Taken .keepalive f s → exec (.keepalive f) s =
      if c.device = .active ∧ c.window ≠ 0#16 then moved { c with timer := started c.window } .ok
      else moved c .ok) ∧
    (Taken .setTimebase f s → exec (.setTimebase f) s =
      if c.device ≠ .standby then moved c .wrongState
      else if 1 ≤ value.toNat ∧ value.toNat ≤ 1000 then moved { c with tickPeriod := value } .ok
      else moved c .badParam) ∧
    (Taken .setSupervision f s → exec (.setSupervision f) s =
      if c.device = .active then moved { c with window := value, timer := started value } .ok
      else moved { c with window := value } .ok) ∧
    (Taken .setOfferLimit f s → exec (.setOfferLimit f) s =
      if byteAt f.params 0 = 0#8 then moved c .badParam
      else moved { c with offerLimit := byteAt f.params 0 } .ok)

/-- STOP in ACTIVE or FALLBACK takes the device to STANDBY, stops the timer and withdraws every PENDING
ticket with reason STOPPED in release-list order; in STANDBY it is WRONG_STATE (R69, R167). -/
def Obligations.StopWithdrawsEveryPendingTicket : Prop :=
  ∀ (s : State) (f : HostFrame), Taken .stop f s →
    (s.ctu.device = .active ∨ s.ctu.device = .fallback → s.rlu.releaseList.Nodup →
      (∀ r ∈ s.rlu.releaseList, (s.record r).body.isPending = true) →
      ∃ t, exec (.stop f) s = .next t ∧ Withdrew .stopped s.rlu.releaseList s t ∧
        t.rlu.releaseList = [] ∧ t.ctu = { s.ctu with device := .standby, timer := none } ∧
        t.hpt = (s.answered f.seq .ok []).hpt ∧ t.evu = s.evu ∧ CountersKept s t ∧
        t.pointer = s.pointer ∧ t.edu = s.edu) ∧
    (s.ctu.device = .standby → exec (.stop f) s = .next (s.answered f.seq .wrongState []))

/-- WARM_RESTART keeps the table with its LIVE windows opened at now and its RETIRING entries finished,
the generation, the serials, the timebase and the configuration; it frees every ticket without notice,
closes the transaction (against R165's own sentence: log 22), restarts the OPEN ports with a PORT_UP, a
flushed frame ended with the abort sequence (the line is the model's view, log 10), clears the cursor and
the events, and leaves the device in STANDBY with cause WARM; the link of an OPEN port then carries the
PORT_UP, that of a CLOSED one delimiters (R25, R28, R73, R118, R135, R140, R155, R169, R187). -/
def Obligations.WarmRestartKeepsTable : Prop :=
  ∀ (s : State) (f : HostFrame), Taken .warmRestart f s →
    ∃ t, exec (.warmRestart f) s = .next t ∧
      t.ctu = { s.ctu with device := .standby, timer := none, cause := .warm } ∧ CountersKept s t ∧
      t.pointer = 0 ∧
      (∀ i,
        (∀ l, (s.slot i).body = .live l → t.slot i = ⟨(s.slot i).era, .live
          { l with entry := { l.entry with windowOpen := s.ctu.now }, window := .opened,
                   ticket := none }⟩) ∧
        (∀ e c k, (s.slot i).body = .retiring e c k → t.slot i = (s.slot i).ticketDone) ∧
        ((s.slot i).body.isFree = true ∨ (s.slot i).body.isRetired = true → t.slot i = s.slot i)) ∧
      (∀ r, t.record r = ⟨(s.record r).serial, .free⟩) ∧ t.rlu.releaseList = [] ∧
      t.rlu.freeOrder = s.rlu.freeOrder ++
        (List.finRange 96).filter (fun r => !(s.record r).body.isFree) ∧
      t.edu = ⟨.closed, [], ⟨.noCommit, 0, .noReason, 0, 0#16, []⟩⟩ ∧
      (∀ p,
        ((s.port p).state = .closed → t.port p = s.port p ∧ ∀ k, txByte t p k = 0xB5#8) ∧
        ((s.port p).state = .opened → ((s.port p).outbound ≠ [] →
            (t.port p).line.bytes = [0xB4#8, 0xB5#8]) ∧
          (∀ k, txByte t p k = (lineFrame (OutMsg.content
            ⟨false, .portUp .standby s.rtb.generation⟩)).getD k 0xB5#8) ∧ t.port p = ⟨.opened, (s.port p).quota, [],
          [⟨false, .portUp .standby s.rtb.generation⟩], false, .hunt,
          if (s.port p).outbound.isEmpty then (s.port p).line else .aborted⟩)) ∧
      t.hpt = { s.hpt with phase := .idle, miso := [], response := ⟨f.seq, .ok, []⟩, cursor := none } ∧
      t.evu = { s.evu with flags := 0#11, overrunPorts := 0#8, linkErrorPorts := 0#8 } ∧
      alertLow t = false ∧ noteLow t = false

/-! ### Events -/

/-- SET_EVENT_LEVELS gives the level to exactly the kinds of the set, and is BAD_PARAM for a bit above 10 or
a level above 2 (R182). CLEAR_EVENTS reports the pending set and the port sets and then clears the kinds
of the set, emptying the port set of PORT_OVERRUN and LINK_ERROR where named (R184). -/
def Obligations.EventCommands : Prop :=
  (∀ (s : State) (f : HostFrame), Taken .setEventLevels f s →
    (2048 ≤ (halfAt f.params 0).toNat ∨ 2 < (byteAt f.params 2).toNat →
      exec (.setEventLevels f) s = .next (s.answered f.seq .badParam [])) ∧
    (∀ level : EventLevel, (halfAt f.params 0).toNat < 2048 → byteAt f.params 2 = level.code →
      ∃ levels : Vector EventLevel 11,
        (∀ k : Fin 11, levels[k.val]
          = if (halfAt f.params 0).getLsbD k.val then level else s.evu.levels[k.val]) ∧
        exec (.setEventLevels f) s
          = .next (State.answered { s with evu := { s.evu with levels := levels } } f.seq .ok []))) ∧
  (∀ (s : State) (f : HostFrame), Taken .clearEvents f s →
    (2048 ≤ (halfAt f.params 0).toNat →
      exec (.clearEvents f) s = .next (s.answered f.seq .badParam [])) ∧
    ((halfAt f.params 0).toNat < 2048 → ∃ flags : BitVec 11,
      (∀ k, flags.getLsbD k = (s.evu.flags.getLsbD k && !(halfAt f.params 0).getLsbD k)) ∧
      exec (.clearEvents f) s = .next (State.answered
        { s with evu := { s.evu with
            flags := flags
            overrunPorts := if (halfAt f.params 0).getLsbD 7 then 0#8 else s.evu.overrunPorts
            linkErrorPorts := if (halfAt f.params 0).getLsbD 8 then 0#8 else s.evu.linkErrorPorts } }
        f.seq .ok (be16 (s.evu.flags.setWidth 16) ++ [s.evu.overrunPorts, s.evu.linkErrorPorts]))))

/-- READ_EVENTS is answered OK with 16 bytes read at its event, the pending set, the two port sets, the
reset cause and the eleven levels in kind order, and changes nothing but the response (R183). -/
def Obligations.ReadEventsReports : Prop :=
  ∀ (s : State) (f : HostFrame), Taken .readEvents f s →
    ∃ data, exec (.readEvents f) s = .next (s.answered f.seq .ok data) ∧ data.length = 16 ∧
      (∀ k : Fin 11, (halfAt data 0).getLsbD k.val = s.evu.flags.getLsbD k.val) ∧
      (halfAt data 0).toNat < 2048 ∧
      byteAt data 2 = s.evu.overrunPorts ∧ byteAt data 3 = s.evu.linkErrorPorts ∧
      byteAt data 4 = (match s.ctu.cause with
        | .powerOn => 0#8
        | .pin => 1#8
        | .warm => 2#8) ∧
      ∀ k : Fin 11, byteAt data (5 + k.val) = (match s.evu.levels[k.val] with
        | .silent => 0#8
        | .note => 1#8
        | .alert => 2#8)

/-! ### Ports -/

/-- PORT_OPEN of a CLOSED port opens it with the quota given, empty queues, a clear mark, the receiver in
HUNT and a PORT_UP placed; PORT_CLOSE of an OPEN port completes every ticket it owns without notice, in
rising record number, and leaves it CLOSED with empty queues, a clear mark and its quota kept (R53, R71,
R120, R121, R135, R136). The link of the closed port carries delimiters, after the abort sequence where a frame was in
transmission (R123, R135, R137). A number out of range is BAD_PARAM, a port already so WRONG_STATE. How a
frame in transmission ends on the line is the model's own view (log 10). -/
def Obligations.PortCommands : Prop :=
  (∀ (s : State) (f : HostFrame), Taken .portOpen f s →
    (7 < (byteAt f.params 0).toNat ∨ 96 < (byteAt f.params 1).toNat →
      exec (.portOpen f) s = .next (s.answered f.seq .badParam [])) ∧
    (∀ p : PortNo, (byteAt f.params 0).toNat = p.val → (byteAt f.params 1).toNat ≤ 96 →
      ((s.port p).state = .opened → exec (.portOpen f) s = .next (s.answered f.seq .wrongState [])) ∧
      ((s.port p).state = .closed → exec (.portOpen f) s = .next ((s.setPort p
        ⟨.opened, (byteAt f.params 1).toNat, [], [⟨false, .portUp s.ctu.device s.rtb.generation⟩], false,
          .hunt, (s.port p).line⟩).answered f.seq .ok [])))) ∧
  (∀ (s : State) (f : HostFrame), Taken .portClose f s →
    (7 < (byteAt f.params 0).toNat → exec (.portClose f) s = .next (s.answered f.seq .badParam [])) ∧
    (∀ p : PortNo, (byteAt f.params 0).toNat = p.val →
      ((s.port p).state = .closed → exec (.portClose f) s = .next (s.answered f.seq .wrongState [])) ∧
      ((s.port p).state = .opened →
        ∃ t, exec (.portClose f) s = .next t ∧
          Completed ((List.finRange 96).filter
            (fun r => (s.record r).body.held?.any (fun h => h.owner == p))) s t ∧
          t.port p = { s.port p with
            state := .closed
            inbound := []
            outbound := []
            overrun := false
            line := if (s.port p).outbound.isEmpty then (s.port p).line else .aborted } ∧
          ((s.port p).outbound ≠ [] → (t.port p).line.bytes = [0xB4#8, 0xB5#8]) ∧
          (∀ k, txByte t p k = 0xB5#8) ∧
          (∀ q, q ≠ p → t.port q = s.port q) ∧ ticketsOwned t p = 0 ∧
          t.hpt = (s.answered f.seq .ok []).hpt ∧ t.ctu = s.ctu ∧ t.evu = s.evu ∧
          CountersKept s t ∧ t.pointer = s.pointer ∧ t.edu = s.edu)))

/-! ### Edit transactions -/

/-- BEGIN, the STAGE commands and DISCARD by the transaction state: BEGIN opens with an empty list, a STAGE
command appends its op and answers its index unless 16 are staged, DISCARD empties and closes; the other
states answer ALREADY_OPEN, NO_TRANSACTION, STAGE_FULL and BUSY with no change. COMMIT_RESULT returns the
record in every state (R95 to R98, R117). An op holds its bytes as received (log 21). -/
def Obligations.TransactionCommands : Prop :=
  ∀ (s : State) (f : HostFrame),
    let edited (e : EditUnit) (result : ResultCode) (data : List Byte) :
        Host.Outcome State Fault Refusal :=
      .next (State.answered { s with edu := e } f.seq result data)
    let e := s.edu
    let staged (op : Op) : Host.Outcome State Fault Refusal := match e.txn with
      | .closed => edited e .noTransaction []
      | .building => edited e .busy []
      | .opened => if e.ops.length < 16
          then edited { e with ops := e.ops ++ [op] } .ok [BitVec.ofNat 8 e.ops.length]
          else edited e .stageFull []
    (Taken .begin f s → exec (.begin f) s = match e.txn with
      | .closed => edited { e with txn := .opened, ops := [] } .ok []
      | .opened => edited e .alreadyOpen []
      | .building => edited e .busy []) ∧
    (Taken .discard f s → exec (.discard f) s = match e.txn with
      | .closed => edited e .noTransaction []
      | .opened => edited { e with txn := .closed, ops := [] } .ok []
      | .building => edited e .busy []) ∧
    (Taken .stageInsert f s → exec (.stageInsert f) s = staged (.insert f.params)) ∧
    (Taken .stageRemove f s → exec (.stageRemove f) s = staged (.remove (halfAt f.params 0))) ∧
    (Taken .stageAmend f s →
      exec (.stageAmend f) s = staged (.amend (halfAt f.params 0) (f.params.drop 2))) ∧
    (Taken .stageRenew f s → exec (.stageRenew f) s = staged (.renew (halfAt f.params 0))) ∧
    (Taken .commitResult f s → exec (.commitResult f) s = edited e .ok
      ([e.result.status.code, countByte e.result.opIndex, e.result.reason.code,
        countByte e.result.fieldNo] ++ be16 e.result.generation ++
        [countByte e.result.handles.length] ++ e.result.handles.flatMap (fun h => be16 h.word)))

/-- COMMIT in OPEN examines the ops in order, each by its tests in order: with no failure it is ACCEPTED and
the transaction is BUILDING; else it is REJECTED with the index of the first op that fails, the reason of
its first test that fails and, for FIELD, the number of its first failing field, and the transaction stays
OPEN with its ops; no ops fail with EMPTY. The record is overwritten either way and the table is left. In
CLOSED it is NO_TRANSACTION, in BUILDING BUSY (R95, R99 to R105, R116). -/
def Obligations.CommitAnswersByValidation : Prop :=
  ∀ (s : State) (f : HostFrame), Taken .commit f s →
    (s.edu.txn = .closed → exec (.commit f) s = .next (s.answered f.seq .noTransaction [])) ∧
    (s.edu.txn = .building → exec (.commit f) s = .next (s.answered f.seq .busy [])) ∧
    (s.edu.txn = .opened →
      ((∀ n reason field, ¬ CommitRejected s n reason field) → exec (.commit f) s = .next (State.answered
        { s with edu := { s.edu with
            txn := .building, result := ⟨.building, 0, .noReason, 0, s.rtb.generation, []⟩ } }
        f.seq .accepted [])) ∧
      (∀ n reason field, CommitRejected s n reason field → exec (.commit f) s = .next (State.answered
        { s with edu := { s.edu with
            result := ⟨.rejected, n, reason, field, s.rtb.generation, []⟩ } }
        f.seq .rejected [countByte n, reason.code, countByte field])))

/-- Validation accepts exactly the lists that have an op and of which no op fails a test, and rejects every
other list at its first failing op with the reason and field number of that op. The image of an accepted
INSERT or AMEND fails no field; the criteria of an INSERT are those of no LIVE entry still there and of no
earlier INSERT, there are FREE slots and serials for all of the INSERTs, and every other op names a LIVE
entry that no earlier op removes (R99 to R105). -/
def Obligations.AcceptedOpsAreSound : Prop :=
  (∀ s : State, validate s = none ↔ s.edu.ops ≠ [] ∧ ∀ n reason field, ¬ OpRejected s n reason field) ∧
  (∀ (s : State) (n : Nat) (reason : CommitReason) (field : Nat),
    validate s = some (n, reason, field) ↔ CommitRejected s n reason field) ∧
  ∀ s : State, validate s = none →
    s.edu.ops ≠ [] ∧
    insertCount s.edu.ops ≤ freeCount s ∧
    (insertCount s.edu.ops ≠ 0 → s.rtb.exhausted = false ∧
      s.rtb.nextSerial.toNat + insertCount s.edu.ops ≤ 2 ^ 32) ∧
    stagedDistinct s ⟨[], [], 0⟩ s.edu.ops = true ∧
    (∀ image, Op.insert image ∈ s.edu.ops → ∀ k, ¬ DefinitionFieldFails image k) ∧
    (∀ w image, Op.amend w image ∈ s.edu.ops → ∀ k, ¬ ActionFieldFails image 0 k) ∧
    (∀ op ∈ s.edu.ops, ∀ w, op.target = some w → (s.namedLive w).isSome = true) ∧
    (∀ (m n : Nat) (w : Half) (op : Op) (w' : Half), m < n → s.edu.ops[m]? = some (.remove w) →
      s.edu.ops[n]? = some op → op.target = some w' → s.namedLive w ≠ s.namedLive w')

/-- CUTOVER in BUILDING. Where some target no longer names a LIVE entry, nothing is applied: the record is
FAILED with TARGET_RETIRED and the first such op's index, the transaction is OPEN with its ops, and
COMMIT_FAILED is raised. Otherwise the ops are applied in order, the generation increments, the record is
DONE with the new generation and the INSERTs' handles, the transaction is CLOSED and COMMIT_DONE is
raised (R108, R109, R116). -/
def Obligations.CutoverAppliesOrFails : Prop :=
  ∀ s : State, s.edu.txn = .building →
    (∀ n op w, s.edu.ops[n]? = some op → op.target = some w → s.namedLive w = none →
      (∀ m, m < n → ∀ op', s.edu.ops[m]? = some op' → ∀ w', op'.target = some w' →
        (s.namedLive w').isSome = true) →
      exec .cutover s = .next { s with
        edu := { s.edu with
          txn := .opened, result := ⟨.failed, n, .targetRetired, 0, s.rtb.generation, []⟩ }
        evu := { s.evu with flags := s.evu.flags ||| 4#11 } }) ∧
    ((∀ op ∈ s.edu.ops, ∀ w, op.target = some w → (s.namedLive w).isSome = true) →
      ∃ t u handles, applyOps s.edu.ops s = (u, handles) ∧ exec .cutover s = .next t ∧
        t = { u with
          rtb := { u.rtb with generation := s.rtb.generation + 1#16 }
          edu := ⟨.closed, [], ⟨.done, 0, .noReason, 0, s.rtb.generation + 1#16, handles⟩⟩
          evu := { s.evu with flags := s.evu.flags ||| 2#11 } } ∧
        u.ctu = s.ctu ∧ u.hpt = s.hpt ∧ u.pointer = s.pointer ∧ u.pending = s.pending)

/-- Each op at cutover (R109 to R113): an INSERT writes a new LIVE entry into the lowest FREE slot with the
next serial; a REMOVE retires its entry with cause REMOVED, to FREE without a ticket and to RETIRING with
an OFFERED one; an AMEND replaces the action fields, opens the window when the interval changes and
restarts the deadline; both first withdraw a PENDING ticket, with reason REMOVED or AMENDED, which
completes, and then no ticket is left to the entry (R67, R70); a RENEW restarts the deadline. Nothing else
changes. Ops are applied one after another. -/
def Obligations.OpsAtCutover : Prop :=
  (∀ (op : Op) (rest : List Op) (s : State),
    applyOps (op :: rest) s = ((applyOps rest (applyOp op s).1).1,
      (applyOp op s).2 ++ (applyOps rest (applyOp op s).1).2)) ∧
  (∀ (s : State) (i : SlotNo) (image : List Byte), (s.slot i).body = .free →
    (∀ j, j < i → (s.slot j).body.isFree = false) →
    let d := Definition.ofImage image
    applyOp (.insert image) s = ({ s with rtb := { s.rtb with
        slots := s.rtb.slots.set i.val ⟨(s.slot i).era, .live ⟨⟨d, s.rtb.nextSerial, 0#16, s.ctu.now⟩,
          .opened, d.action.deadlineFrom s.ctu.now, none⟩⟩
        nextSerial := if s.rtb.nextSerial.toNat = 4294967295 then s.rtb.nextSerial
          else s.rtb.nextSerial + 1#32
        exhausted := s.rtb.exhausted || s.rtb.nextSerial.toNat == 4294967295 } },
      [⟨(s.slot i).era, i⟩])) ∧
  (∀ (s : State) (w : Half) (i : SlotNo) (l : LiveEntry),
    s.namedLive w = some i → (s.slot i).body = .live l →
    let amended (image : List Byte) : LiveEntry :=
      { l with
        entry := { l.entry with
          definition := { l.entry.definition with action := .ofImage image }
          windowOpen := if (Action.ofImage image).paceInterval = l.entry.action.paceInterval
            then l.entry.windowOpen else s.ctu.now }
        window := if (Action.ofImage image).paceInterval = l.entry.action.paceInterval
          then l.window else .opened
        deadline := match (Action.ofImage image).lifetimeKind with
          | .permanent => none
          | .idle => some (s.ctu.now + (Action.ofImage image).lifetimeValue.setWidth 32)
          | .fixed => some (s.ctu.now + (Action.ofImage image).lifetimeValue.setWidth 32) }
    (l.ticket = none →
      applyOp (.remove w) s = (s.setSlot i ⟨(s.slot i).era + 1#6, .free⟩, []) ∧
      ∀ image, applyOp (.amend w image) s
        = (s.setSlot i ⟨(s.slot i).era, .live (amended image)⟩, [])) ∧
    (∀ k h c o, l.ticket = some k → (s.record k.number).body = .offered h c o →
      applyOp (.remove w) s = (s.setSlot i ⟨(s.slot i).era, .retiring l.entry .removed k⟩, []) ∧
      ∀ image, applyOp (.amend w image) s
        = (s.setSlot i ⟨(s.slot i).era, .live (amended image)⟩, [])) ∧
    (∀ k h, l.ticket = some k → (s.record k.number).body = .pending h → h.handle.slot = i →
      let withdrawn (reason : WithdrawReason) (slot : Slot) (t : State) : Prop :=
        (∀ r, t.record r = if r = k.number then ⟨(s.record r).serial, .free⟩ else s.record r) ∧
        t.rlu.freeOrder = s.rlu.freeOrder ++ [k.number] ∧
        t.rlu.releaseList = s.rlu.releaseList.filter (fun r => r != k.number) ∧
        (∀ j, t.slot j = if j = i then slot else s.slot j) ∧
        (∀ p, t.port p = (s.port p).placedAll (withdrawnFor s reason [k.number] p)) ∧
        t.evu = s.evu ∧ t.pointer = s.pointer ∧ RestKept s t ∧ t.pending = s.pending
      (∃ t, applyOp (.remove w) s = (t, []) ∧
        withdrawn .removed ⟨(s.slot i).era + 1#6, .free⟩ t) ∧
      ∀ image, ∃ t, applyOp (.amend w image) s = (t, []) ∧
        withdrawn .amended ⟨(s.slot i).era, .live { amended image with ticket := none }⟩ t)) ∧
  (∀ (s : State) (w : Half) (i : SlotNo) (l : LiveEntry),
    s.namedLive w = some i → (s.slot i).body = .live l →
    applyOp (.renew w) s = (s.setSlot i ⟨(s.slot i).era, .live
      { l with deadline := match l.entry.action.lifetimeKind with
          | .permanent => none
          | .idle => some (s.ctu.now + l.entry.action.lifetimeValue.setWidth 32)
          | .fixed => some (s.ctu.now + l.entry.action.lifetimeValue.setWidth 32) }⟩, []))

/-- An image that passes the FIELD test is kept as the host gave it: the definition read from a 32-byte
image returns the same 32 bytes, and the action fields of a 20-byte image the same 20 bytes (R101, R189,
R190). -/
def Obligations.ImageIsKeptAsGiven : Prop :=
  (∀ image : List Byte, image.length = 32 → definitionFailure image = none →
    (Definition.ofImage image).image = image) ∧
  (∀ (d : Definition) (image : List Byte), image.length = 20 → actionFailure image = none →
    ({ d with action := .ofImage image } : Definition).image
      = d.image.take 10 ++ image ++ d.image.drop 30)

/-! ### The wires -/

/-- The MOSI bytes of a command frame, whatever follows them, spell that command: every command, every
sequence, every check byte and every parameter block of at most 60 bytes (R142, R194). A code that is no
command's spells BAD_COMMAND, and bytes short of a frame FRAME_ERROR (R145). -/
def Obligations.HostFramesDecode : Prop :=
  (∀ (c : HostCmd) (f : HostFrame) (extra : List Byte), f.params.length ≤ 60 →
    decodeMosi (frameBytes (hostCode c) f ++ extra) = c.instr f) ∧
  (∀ (code : Byte) (f : HostFrame) (extra : List Byte), f.params.length ≤ 60 → hostCmdOf code = none →
    decodeMosi (frameBytes code f ++ extra) = .badCommand code f) ∧
  (∀ mosi : List Byte, frameComplete mosi = false → decodeMosi mosi = .frameError mosi)

/-- Frames one after another on a link, escaped, with one delimiter between two, arrive as they were: from
HUNT and from FRAME their bytes bring the arrivals of their contents in order and leave the receiver in
FRAME, a content of more than 9 bytes held to its ninth and counted as too long. Delimiters alone and a
frame ended by the abort sequence bring nothing, and an inbound message's content passes the arrival checks
as that message (R123, R124, R126, R192). -/
def Obligations.LinkFramesArrive : Prop :=
  (∀ (p : PortNo) (contents : List (List Byte)), (∀ c ∈ contents, c ≠ []) →
    let arrivals := contents.map (fun c => Instr.frameArrival p ⟨c.take 9, decide (9 < c.length)⟩)
    receiveBytes p .hunt (lineFrames contents) = (.frame ⟨[], false⟩ false, .huntDelimiter p :: arrivals) ∧
    receiveBytes p (.frame ⟨[], false⟩ false) (lineFrames contents) = (.frame ⟨[], false⟩ false, arrivals)) ∧
  (∀ contents : List (List Byte), lineFrames contents = 0xB5#8 :: contents.flatMap (fun c =>
    c.flatMap (fun b => if b = 0xB5#8 ∨ b = 0xB4#8 then [0xB4#8, b ^^^ 0x40#8] else [b]) ++ [0xB5#8])) ∧
  (∀ content : List Byte, lineFrame content = lineFrames [content]) ∧
  (∀ (p : PortNo) (n : Nat), receiveBytes p (.frame ⟨[], false⟩ false) (List.replicate n 0xB5#8)
    = (.frame ⟨[], false⟩ false, [])) ∧
  (∀ (p : PortNo) (content : List Byte),
    receiveBytes p (.frame ⟨[], false⟩ false) (0xB5#8 :: escapeAll content ++ [0xB4#8, 0xB5#8])
      = (.frame ⟨[], false⟩ false, [])) ∧
  (∀ m : InMsg, parseInbound m.content = some m)

/-! ### Invariants -/

/-- Every step keeps the control unit, the event unit and the op list sound, and INIT empty: the timer
RUNNING exactly in ACTIVE with a window, the timebase held in INIT, the port sets empty exactly while
their kinds are clear, no op in CLOSED and at most 16 (R93, R94, R164, R171, R173, R179); in INIT the
table, the tickets and the transaction at their reset values, every port CLOSED and the walk cursor
absent (R24, R74, R118, R139, R155). -/
def Obligations.StepKeepsControlEventsAndInit : Prop :=
  ∀ s t : State, step s = .next t →
    (ControlSound s → ControlSound t) ∧ (EventsSound s → EventsSound t) ∧
    (EditSound s → EditSound t) ∧ (InitSound s → InitSound t)

/-- Every step keeps the ports sound: at most 4 inbound messages and 8 answers, the load of an OPEN port
within its quota, a CLOSED port empty and without tickets (R55, R127, R132, R137). -/
def Obligations.StepKeepsPorts : Prop :=
  ∀ s t : State, PortsSound s → step s = .next t → PortsSound t

/-- Every step keeps the tickets sound: the free order and the release list hold exactly the FREE and the
PENDING records, tickets and entries name each other, no ticket is PENDING outside ACTIVE and FALLBACK,
and none of a non-ESSENTIAL entry in FALLBACK (R14, R53, R54, R70, R72). With them it keeps the shape of
the entries: a LIVE entry has a deadline exactly when IDLE or FIXED (R13, R76), the ticket of a RETIRING
entry is OFFERED, or PENDING and the entry a spent SINGLE one (R83), and a RETIRED entry has cause EXPIRED
or SPENT without QUIET (R84). -/
def Obligations.StepKeepsTickets : Prop :=
  ∀ s t : State, TicketsSound s → PendingSound s → step s = .next t →
    TicketsSound t ∧ PendingSound t ∧ (EntriesShaped s → EntriesShaped t)

/-- Every step keeps serials given once: every entry's serial lies below the counter until it is
exhausted, and no two LIVE entries share one (R15, R18, R105). -/
def Obligations.StepKeepsSerials : Prop :=
  ∀ s t : State, SerialsSound s → step s = .next t → SerialsSound t

/-- Every step keeps the criteria of the LIVE entries distinct (R8, R102). -/
def Obligations.StepKeepsCriteria : Prop :=
  ∀ s t : State, CriteriaSound s → step s = .next t → CriteriaSound t

/-- Between resets the generation changes only at a CUTOVER that applies its ops, by exactly one; a hard
reset sets it to 0 (R17). -/
def Obligations.GenerationCountsCutovers : Prop :=
  ∀ (c : Instr) (s t : State), exec c s = .next t → t.rtb.generation ≠ s.rtb.generation →
    (c = .cutover ∧ s.edu.txn = .building ∧ t.edu.txn = .closed ∧
      t.rtb.generation = s.rtb.generation + 1#16) ∨
    (isResetCommand c = true ∧ t.rtb.generation = 0#16)

/-- In every event but a CUTOVER, the reset family and the memory clear, the era of a slot increments
exactly when the slot enters FREE, and no slot leaves FREE (R3, R23). -/
def Obligations.EraCountsEntriesIntoFree : Prop :=
  ∀ (c : Instr) (s t : State) (i : SlotNo), exec c s = .next t → c ≠ .cutover →
    c ≠ .memoryClearComplete → isResetCommand c = false →
    ((s.slot i).body.isFree = true → t.slot i = s.slot i) ∧
    (t.slot i).era = (s.slot i).era +
      (if (s.slot i).body.isFree = false ∧ (t.slot i).body.isFree = true then 1#6 else 0#6)
end

