-- ==== Sys2Proof/Laws/State.lean ====
section
/-!
SUPPORT. One lemma per block per update: what each elementary update of the state leaves as it was,
and what reading the part it writes gives.
-/

namespace Sys2Proof.Machine

variable (s : State)

/-! ### setSlot -/

@[simp] theorem State.setSlot_pointer (i : SlotNo) (v : Slot) : (s.setSlot i v).pointer = s.pointer := rfl
@[simp] theorem State.setSlot_rlu (i : SlotNo) (v : Slot) : (s.setSlot i v).rlu = s.rlu := rfl
@[simp] theorem State.setSlot_record (i : SlotNo) (v : Slot) (r' : RecNo) : (s.setSlot i v).record r' = s.record r' := rfl
@[simp] theorem State.setSlot_edu (i : SlotNo) (v : Slot) : (s.setSlot i v).edu = s.edu := rfl
@[simp] theorem State.setSlot_qp (i : SlotNo) (v : Slot) : (s.setSlot i v).qp = s.qp := rfl
@[simp] theorem State.setSlot_port (i : SlotNo) (v : Slot) (p' : PortNo) : (s.setSlot i v).port p' = s.port p' := rfl
@[simp] theorem State.setSlot_hpt (i : SlotNo) (v : Slot) : (s.setSlot i v).hpt = s.hpt := rfl
@[simp] theorem State.setSlot_ctu (i : SlotNo) (v : Slot) : (s.setSlot i v).ctu = s.ctu := rfl
@[simp] theorem State.setSlot_evu (i : SlotNo) (v : Slot) : (s.setSlot i v).evu = s.evu := rfl
@[simp] theorem State.setSlot_pending (i : SlotNo) (v : Slot) : (s.setSlot i v).pending = s.pending := rfl
@[simp] theorem State.setSlot_generation (i : SlotNo) (v : Slot) : (s.setSlot i v).rtb.generation = s.rtb.generation := rfl
@[simp] theorem State.setSlot_nextSerial (i : SlotNo) (v : Slot) : (s.setSlot i v).rtb.nextSerial = s.rtb.nextSerial := rfl
@[simp] theorem State.setSlot_exhausted (i : SlotNo) (v : Slot) : (s.setSlot i v).rtb.exhausted = s.rtb.exhausted := rfl

/-! ### setBody -/

@[simp] theorem State.setBody_pointer (i : SlotNo) (b : SlotBody) : (s.setBody i b).pointer = s.pointer := rfl
@[simp] theorem State.setBody_rlu (i : SlotNo) (b : SlotBody) : (s.setBody i b).rlu = s.rlu := rfl
@[simp] theorem State.setBody_record (i : SlotNo) (b : SlotBody) (r' : RecNo) : (s.setBody i b).record r' = s.record r' := rfl
@[simp] theorem State.setBody_edu (i : SlotNo) (b : SlotBody) : (s.setBody i b).edu = s.edu := rfl
@[simp] theorem State.setBody_qp (i : SlotNo) (b : SlotBody) : (s.setBody i b).qp = s.qp := rfl
@[simp] theorem State.setBody_port (i : SlotNo) (b : SlotBody) (p' : PortNo) : (s.setBody i b).port p' = s.port p' := rfl
@[simp] theorem State.setBody_hpt (i : SlotNo) (b : SlotBody) : (s.setBody i b).hpt = s.hpt := rfl
@[simp] theorem State.setBody_ctu (i : SlotNo) (b : SlotBody) : (s.setBody i b).ctu = s.ctu := rfl
@[simp] theorem State.setBody_evu (i : SlotNo) (b : SlotBody) : (s.setBody i b).evu = s.evu := rfl
@[simp] theorem State.setBody_pending (i : SlotNo) (b : SlotBody) : (s.setBody i b).pending = s.pending := rfl
@[simp] theorem State.setBody_generation (i : SlotNo) (b : SlotBody) : (s.setBody i b).rtb.generation = s.rtb.generation := rfl
@[simp] theorem State.setBody_nextSerial (i : SlotNo) (b : SlotBody) : (s.setBody i b).rtb.nextSerial = s.rtb.nextSerial := rfl
@[simp] theorem State.setBody_exhausted (i : SlotNo) (b : SlotBody) : (s.setBody i b).rtb.exhausted = s.rtb.exhausted := rfl

/-! ### setRecord -/

@[simp] theorem State.setRecord_rtb (r : RecNo) (v : TicketRecord) : (s.setRecord r v).rtb = s.rtb := rfl
@[simp] theorem State.setRecord_slot (r : RecNo) (v : TicketRecord) (j : SlotNo) : (s.setRecord r v).slot j = s.slot j := rfl
@[simp] theorem State.setRecord_pointer (r : RecNo) (v : TicketRecord) : (s.setRecord r v).pointer = s.pointer := rfl
@[simp] theorem State.setRecord_edu (r : RecNo) (v : TicketRecord) : (s.setRecord r v).edu = s.edu := rfl
@[simp] theorem State.setRecord_qp (r : RecNo) (v : TicketRecord) : (s.setRecord r v).qp = s.qp := rfl
@[simp] theorem State.setRecord_port (r : RecNo) (v : TicketRecord) (p' : PortNo) : (s.setRecord r v).port p' = s.port p' := rfl
@[simp] theorem State.setRecord_hpt (r : RecNo) (v : TicketRecord) : (s.setRecord r v).hpt = s.hpt := rfl
@[simp] theorem State.setRecord_ctu (r : RecNo) (v : TicketRecord) : (s.setRecord r v).ctu = s.ctu := rfl
@[simp] theorem State.setRecord_evu (r : RecNo) (v : TicketRecord) : (s.setRecord r v).evu = s.evu := rfl
@[simp] theorem State.setRecord_pending (r : RecNo) (v : TicketRecord) : (s.setRecord r v).pending = s.pending := rfl
@[simp] theorem State.setRecord_freeOrder (r : RecNo) (v : TicketRecord) : (s.setRecord r v).rlu.freeOrder = s.rlu.freeOrder := rfl
@[simp] theorem State.setRecord_releaseList (r : RecNo) (v : TicketRecord) : (s.setRecord r v).rlu.releaseList = s.rlu.releaseList := rfl

/-! ### setPort -/

@[simp] theorem State.setPort_rtb (p : PortNo) (v : Port) : (s.setPort p v).rtb = s.rtb := rfl
@[simp] theorem State.setPort_slot (p : PortNo) (v : Port) (j : SlotNo) : (s.setPort p v).slot j = s.slot j := rfl
@[simp] theorem State.setPort_pointer (p : PortNo) (v : Port) : (s.setPort p v).pointer = s.pointer := rfl
@[simp] theorem State.setPort_rlu (p : PortNo) (v : Port) : (s.setPort p v).rlu = s.rlu := rfl
@[simp] theorem State.setPort_record (p : PortNo) (v : Port) (r' : RecNo) : (s.setPort p v).record r' = s.record r' := rfl
@[simp] theorem State.setPort_edu (p : PortNo) (v : Port) : (s.setPort p v).edu = s.edu := rfl
@[simp] theorem State.setPort_hpt (p : PortNo) (v : Port) : (s.setPort p v).hpt = s.hpt := rfl
@[simp] theorem State.setPort_ctu (p : PortNo) (v : Port) : (s.setPort p v).ctu = s.ctu := rfl
@[simp] theorem State.setPort_evu (p : PortNo) (v : Port) : (s.setPort p v).evu = s.evu := rfl
@[simp] theorem State.setPort_pending (p : PortNo) (v : Port) : (s.setPort p v).pending = s.pending := rfl

/-! ### place -/

@[simp] theorem place_rtb (p : PortNo) (b : OutBody) : (place p b s).rtb = s.rtb := rfl
@[simp] theorem place_slot (p : PortNo) (b : OutBody) (j : SlotNo) : (place p b s).slot j = s.slot j := rfl
@[simp] theorem place_pointer (p : PortNo) (b : OutBody) : (place p b s).pointer = s.pointer := rfl
@[simp] theorem place_rlu (p : PortNo) (b : OutBody) : (place p b s).rlu = s.rlu := rfl
@[simp] theorem place_record (p : PortNo) (b : OutBody) (r' : RecNo) : (place p b s).record r' = s.record r' := rfl
@[simp] theorem place_edu (p : PortNo) (b : OutBody) : (place p b s).edu = s.edu := rfl
@[simp] theorem place_hpt (p : PortNo) (b : OutBody) : (place p b s).hpt = s.hpt := rfl
@[simp] theorem place_ctu (p : PortNo) (b : OutBody) : (place p b s).ctu = s.ctu := rfl
@[simp] theorem place_evu (p : PortNo) (b : OutBody) : (place p b s).evu = s.evu := rfl
@[simp] theorem place_pending (p : PortNo) (b : OutBody) : (place p b s).pending = s.pending := rfl

/-! ### popInbound -/

@[simp] theorem popInbound_rtb (p : PortNo) : (popInbound p s).rtb = s.rtb := rfl
@[simp] theorem popInbound_slot (p : PortNo) (j : SlotNo) : (popInbound p s).slot j = s.slot j := rfl
@[simp] theorem popInbound_pointer (p : PortNo) : (popInbound p s).pointer = s.pointer := rfl
@[simp] theorem popInbound_rlu (p : PortNo) : (popInbound p s).rlu = s.rlu := rfl
@[simp] theorem popInbound_record (p : PortNo) (r' : RecNo) : (popInbound p s).record r' = s.record r' := rfl
@[simp] theorem popInbound_edu (p : PortNo) : (popInbound p s).edu = s.edu := rfl
@[simp] theorem popInbound_hpt (p : PortNo) : (popInbound p s).hpt = s.hpt := rfl
@[simp] theorem popInbound_ctu (p : PortNo) : (popInbound p s).ctu = s.ctu := rfl
@[simp] theorem popInbound_evu (p : PortNo) : (popInbound p s).evu = s.evu := rfl
@[simp] theorem popInbound_pending (p : PortNo) : (popInbound p s).pending = s.pending := rfl

/-! ### raise -/

@[simp] theorem raise_rtb (k : EventKind) : (raise k s).rtb = s.rtb := rfl
@[simp] theorem raise_slot (k : EventKind) (j : SlotNo) : (raise k s).slot j = s.slot j := rfl
@[simp] theorem raise_pointer (k : EventKind) : (raise k s).pointer = s.pointer := rfl
@[simp] theorem raise_rlu (k : EventKind) : (raise k s).rlu = s.rlu := rfl
@[simp] theorem raise_record (k : EventKind) (r' : RecNo) : (raise k s).record r' = s.record r' := rfl
@[simp] theorem raise_edu (k : EventKind) : (raise k s).edu = s.edu := rfl
@[simp] theorem raise_qp (k : EventKind) : (raise k s).qp = s.qp := rfl
@[simp] theorem raise_port (k : EventKind) (p' : PortNo) : (raise k s).port p' = s.port p' := rfl
@[simp] theorem raise_hpt (k : EventKind) : (raise k s).hpt = s.hpt := rfl
@[simp] theorem raise_ctu (k : EventKind) : (raise k s).ctu = s.ctu := rfl
@[simp] theorem raise_pending (k : EventKind) : (raise k s).pending = s.pending := rfl
@[simp] theorem raise_levels (k : EventKind) : (raise k s).evu.levels = s.evu.levels := rfl
@[simp] theorem raise_overrunPorts (k : EventKind) : (raise k s).evu.overrunPorts = s.evu.overrunPorts := rfl
@[simp] theorem raise_linkErrorPorts (k : EventKind) : (raise k s).evu.linkErrorPorts = s.evu.linkErrorPorts := rfl

/-! ### raiseOverrun -/

@[simp] theorem raiseOverrun_rtb (p : PortNo) : (raiseOverrun p s).rtb = s.rtb := rfl
@[simp] theorem raiseOverrun_slot (p : PortNo) (j : SlotNo) : (raiseOverrun p s).slot j = s.slot j := rfl
@[simp] theorem raiseOverrun_pointer (p : PortNo) : (raiseOverrun p s).pointer = s.pointer := rfl
@[simp] theorem raiseOverrun_rlu (p : PortNo) : (raiseOverrun p s).rlu = s.rlu := rfl
@[simp] theorem raiseOverrun_record (p : PortNo) (r' : RecNo) : (raiseOverrun p s).record r' = s.record r' := rfl
@[simp] theorem raiseOverrun_edu (p : PortNo) : (raiseOverrun p s).edu = s.edu := rfl
@[simp] theorem raiseOverrun_qp (p : PortNo) : (raiseOverrun p s).qp = s.qp := rfl
@[simp] theorem raiseOverrun_port (p : PortNo) (p' : PortNo) : (raiseOverrun p s).port p' = s.port p' := rfl
@[simp] theorem raiseOverrun_hpt (p : PortNo) : (raiseOverrun p s).hpt = s.hpt := rfl
@[simp] theorem raiseOverrun_ctu (p : PortNo) : (raiseOverrun p s).ctu = s.ctu := rfl
@[simp] theorem raiseOverrun_pending (p : PortNo) : (raiseOverrun p s).pending = s.pending := rfl
@[simp] theorem raiseOverrun_levels (p : PortNo) : (raiseOverrun p s).evu.levels = s.evu.levels := rfl
@[simp] theorem raiseOverrun_linkErrorPorts (p : PortNo) : (raiseOverrun p s).evu.linkErrorPorts = s.evu.linkErrorPorts := rfl

/-! ### raiseLinkError -/

@[simp] theorem raiseLinkError_rtb (p : PortNo) : (raiseLinkError p s).rtb = s.rtb := rfl
@[simp] theorem raiseLinkError_slot (p : PortNo) (j : SlotNo) : (raiseLinkError p s).slot j = s.slot j := rfl
@[simp] theorem raiseLinkError_pointer (p : PortNo) : (raiseLinkError p s).pointer = s.pointer := rfl
@[simp] theorem raiseLinkError_rlu (p : PortNo) : (raiseLinkError p s).rlu = s.rlu := rfl
@[simp] theorem raiseLinkError_record (p : PortNo) (r' : RecNo) : (raiseLinkError p s).record r' = s.record r' := rfl
@[simp] theorem raiseLinkError_edu (p : PortNo) : (raiseLinkError p s).edu = s.edu := rfl
@[simp] theorem raiseLinkError_qp (p : PortNo) : (raiseLinkError p s).qp = s.qp := rfl
@[simp] theorem raiseLinkError_port (p : PortNo) (p' : PortNo) : (raiseLinkError p s).port p' = s.port p' := rfl
@[simp] theorem raiseLinkError_hpt (p : PortNo) : (raiseLinkError p s).hpt = s.hpt := rfl
@[simp] theorem raiseLinkError_ctu (p : PortNo) : (raiseLinkError p s).ctu = s.ctu := rfl
@[simp] theorem raiseLinkError_pending (p : PortNo) : (raiseLinkError p s).pending = s.pending := rfl
@[simp] theorem raiseLinkError_levels (p : PortNo) : (raiseLinkError p s).evu.levels = s.evu.levels := rfl
@[simp] theorem raiseLinkError_overrunPorts (p : PortNo) : (raiseLinkError p s).evu.overrunPorts = s.evu.overrunPorts := rfl

/-! ### freeRecord -/

@[simp] theorem freeRecord_rtb (r : RecNo) : (freeRecord r s).rtb = s.rtb := rfl
@[simp] theorem freeRecord_slot (r : RecNo) (j : SlotNo) : (freeRecord r s).slot j = s.slot j := rfl
@[simp] theorem freeRecord_pointer (r : RecNo) : (freeRecord r s).pointer = s.pointer := rfl
@[simp] theorem freeRecord_edu (r : RecNo) : (freeRecord r s).edu = s.edu := rfl
@[simp] theorem freeRecord_qp (r : RecNo) : (freeRecord r s).qp = s.qp := rfl
@[simp] theorem freeRecord_port (r : RecNo) (p' : PortNo) : (freeRecord r s).port p' = s.port p' := rfl
@[simp] theorem freeRecord_hpt (r : RecNo) : (freeRecord r s).hpt = s.hpt := rfl
@[simp] theorem freeRecord_ctu (r : RecNo) : (freeRecord r s).ctu = s.ctu := rfl
@[simp] theorem freeRecord_evu (r : RecNo) : (freeRecord r s).evu = s.evu := rfl
@[simp] theorem freeRecord_pending (r : RecNo) : (freeRecord r s).pending = s.pending := rfl

/-! ### closeSpi -/

@[simp] theorem closeSpi_rtb (seq : Byte) (r : Reply) : (closeSpi seq r s).rtb = s.rtb := rfl
@[simp] theorem closeSpi_slot (seq : Byte) (r : Reply) (j : SlotNo) : (closeSpi seq r s).slot j = s.slot j := rfl
@[simp] theorem closeSpi_pointer (seq : Byte) (r : Reply) : (closeSpi seq r s).pointer = s.pointer := rfl
@[simp] theorem closeSpi_rlu (seq : Byte) (r : Reply) : (closeSpi seq r s).rlu = s.rlu := rfl
@[simp] theorem closeSpi_record (seq : Byte) (r : Reply) (r' : RecNo) : (closeSpi seq r s).record r' = s.record r' := rfl
@[simp] theorem closeSpi_edu (seq : Byte) (r : Reply) : (closeSpi seq r s).edu = s.edu := rfl
@[simp] theorem closeSpi_qp (seq : Byte) (r : Reply) : (closeSpi seq r s).qp = s.qp := rfl
@[simp] theorem closeSpi_port (seq : Byte) (r : Reply) (p' : PortNo) : (closeSpi seq r s).port p' = s.port p' := rfl
@[simp] theorem closeSpi_ctu (seq : Byte) (r : Reply) : (closeSpi seq r s).ctu = s.ctu := rfl
@[simp] theorem closeSpi_evu (seq : Byte) (r : Reply) : (closeSpi seq r s).evu = s.evu := rfl
@[simp] theorem closeSpi_pending (seq : Byte) (r : Reply) : (closeSpi seq r s).pending = s.pending := rfl
@[simp] theorem closeSpi_cursor (seq : Byte) (r : Reply) : (closeSpi seq r s).hpt.cursor = s.hpt.cursor := rfl
@[simp] theorem closeSpi_phase (seq : Byte) (r : Reply) : (closeSpi seq r s).hpt.phase = .idle := rfl
@[simp] theorem closeSpi_miso (seq : Byte) (r : Reply) : (closeSpi seq r s).hpt.miso = [] := rfl
@[simp] theorem closeSpi_response (seq : Byte) (r : Reply) : (closeSpi seq r s).hpt.response = ⟨seq, r.result, r.data⟩ := rfl

/-! ### releaseSpi -/

@[simp] theorem releaseSpi_rtb : (releaseSpi s).rtb = s.rtb := rfl
@[simp] theorem releaseSpi_slot (j : SlotNo) : (releaseSpi s).slot j = s.slot j := rfl
@[simp] theorem releaseSpi_pointer : (releaseSpi s).pointer = s.pointer := rfl
@[simp] theorem releaseSpi_rlu : (releaseSpi s).rlu = s.rlu := rfl
@[simp] theorem releaseSpi_record (r' : RecNo) : (releaseSpi s).record r' = s.record r' := rfl
@[simp] theorem releaseSpi_edu : (releaseSpi s).edu = s.edu := rfl
@[simp] theorem releaseSpi_qp : (releaseSpi s).qp = s.qp := rfl
@[simp] theorem releaseSpi_port (p' : PortNo) : (releaseSpi s).port p' = s.port p' := rfl
@[simp] theorem releaseSpi_ctu : (releaseSpi s).ctu = s.ctu := rfl
@[simp] theorem releaseSpi_evu : (releaseSpi s).evu = s.evu := rfl
@[simp] theorem releaseSpi_pending : (releaseSpi s).pending = s.pending := rfl
@[simp] theorem releaseSpi_cursor  : (releaseSpi s).hpt.cursor = s.hpt.cursor := rfl
@[simp] theorem releaseSpi_phase  : (releaseSpi s).hpt.phase = .idle := rfl
@[simp] theorem releaseSpi_miso  : (releaseSpi s).hpt.miso = [] := rfl
@[simp] theorem releaseSpi_response : (releaseSpi s).hpt.response = s.hpt.response := rfl

/-! ### setCursor -/

@[simp] theorem setCursor_rtb (k : Option OrderKey) : (setCursor k s).rtb = s.rtb := rfl
@[simp] theorem setCursor_slot (k : Option OrderKey) (j : SlotNo) : (setCursor k s).slot j = s.slot j := rfl
@[simp] theorem setCursor_pointer (k : Option OrderKey) : (setCursor k s).pointer = s.pointer := rfl
@[simp] theorem setCursor_rlu (k : Option OrderKey) : (setCursor k s).rlu = s.rlu := rfl
@[simp] theorem setCursor_record (k : Option OrderKey) (r' : RecNo) : (setCursor k s).record r' = s.record r' := rfl
@[simp] theorem setCursor_edu (k : Option OrderKey) : (setCursor k s).edu = s.edu := rfl
@[simp] theorem setCursor_qp (k : Option OrderKey) : (setCursor k s).qp = s.qp := rfl
@[simp] theorem setCursor_port (k : Option OrderKey) (p' : PortNo) : (setCursor k s).port p' = s.port p' := rfl
@[simp] theorem setCursor_ctu (k : Option OrderKey) : (setCursor k s).ctu = s.ctu := rfl
@[simp] theorem setCursor_evu (k : Option OrderKey) : (setCursor k s).evu = s.evu := rfl
@[simp] theorem setCursor_pending (k : Option OrderKey) : (setCursor k s).pending = s.pending := rfl
@[simp] theorem setCursor_response (k : Option OrderKey) : (setCursor k s).hpt.response = s.hpt.response := rfl

/-! ### Reading what was written -/

@[simp] theorem State.slot_setSlot (i j : SlotNo) (v : Slot) :
    (s.setSlot i v).slot j = if i = j then v else s.slot j := by
  simp only [State.slot, State.setSlot, Vector.getElem_set, Fin.val_inj]

theorem State.slot_setSlot_self (i : SlotNo) (v : Slot) : (s.setSlot i v).slot i = v := by simp

theorem State.slot_setSlot_ne {i j : SlotNo} (h : i ≠ j) (v : Slot) :
    (s.setSlot i v).slot j = s.slot j := by simp [h]

@[simp] theorem State.slot_setBody (i j : SlotNo) (b : SlotBody) :
    (s.setBody i b).slot j = if i = j then ⟨(s.slot i).era, b⟩ else s.slot j := by
  simp [State.setBody]

@[simp] theorem State.era_setBody (i j : SlotNo) (b : SlotBody) :
    ((s.setBody i b).slot j).era = (s.slot j).era := by
  rw [State.slot_setBody]; split
  · next h => subst h; rfl
  · rfl

@[simp] theorem State.record_setRecord (r r' : RecNo) (v : TicketRecord) :
    (s.setRecord r v).record r' = if r = r' then v else s.record r' := by
  simp only [State.record, State.setRecord, Vector.getElem_set, Fin.val_inj]

@[simp] theorem State.port_setPort (p p' : PortNo) (v : Port) :
    (s.setPort p v).port p' = if p = p' then v else s.port p' := by
  simp only [State.port, State.setPort, Vector.getElem_set, Fin.val_inj]

@[simp] theorem port_place (p p' : PortNo) (b : OutBody) :
    (place p b s).port p' =
      if p = p' then { s.port p with
        outbound := (s.port p).outbound ++ [⟨(s.port p).overrun, b⟩], overrun := false }
      else s.port p' := by
  simp [place]

@[simp] theorem port_popInbound (p p' : PortNo) :
    (popInbound p s).port p' =
      if p = p' then { s.port p with inbound := (s.port p).inbound.tail } else s.port p' := by
  simp [popInbound]

@[simp] theorem record_freeRecord (r r' : RecNo) :
    (freeRecord r s).record r' = if r = r' then ⟨(s.record r).serial, .free⟩ else s.record r' := by
  simp only [State.record, freeRecord, Vector.getElem_set, Fin.val_inj]

@[simp] theorem freeOrder_freeRecord (r : RecNo) :
    (freeRecord r s).rlu.freeOrder = s.rlu.freeOrder ++ [r] := rfl

@[simp] theorem releaseList_freeRecord (r : RecNo) :
    (freeRecord r s).rlu.releaseList = s.rlu.releaseList.filter (fun x => x != r) := rfl

@[simp] theorem flags_raise (k : EventKind) : (raise k s).evu.flags = s.evu.flags ||| k.bit := rfl

@[simp] theorem cursor_setCursor (k : Option OrderKey) : (setCursor k s).hpt.cursor = k := rfl

/-! ### Extensionality through the accessors -/

/-- Two tables' slots agree when every slot does. -/
theorem slots_ext {s t : State} (h : ∀ i, s.slot i = t.slot i) : s.rtb.slots = t.rtb.slots := by
  apply Vector.ext
  intro i hi
  exact h ⟨i, hi⟩

/-- Two pools' records agree when every record does. -/
theorem records_ext {s t : State} (h : ∀ r, s.record r = t.record r) :
    s.rlu.records = t.rlu.records := by
  apply Vector.ext
  intro i hi
  exact h ⟨i, hi⟩

/-- Two states' ports agree when every port does. -/
theorem ports_ext {s t : State} (h : ∀ p, s.port p = t.port p) : s.qp = t.qp := by
  apply Vector.ext
  intro i hi
  exact h ⟨i, hi⟩

/-! ### The state after reset -/

@[simp] theorem reset_slot (i : SlotNo) : State.reset.slot i = ⟨0#6, .free⟩ := by
  simp [State.slot, State.reset, RouteTable.reset]

@[simp] theorem reset_record (r : RecNo) : State.reset.record r = ⟨0#4, .free⟩ := by
  simp [State.record, State.reset, ReleaseUnit.reset]

@[simp] theorem reset_port (p : PortNo) : State.reset.port p = .reset := by
  simp [State.port, State.reset]

end Sys2Proof.Machine
end

