-- ==== Sys2Proof/Laws/Ops.lean ====
section
/-!
SUPPORT. What each shared operation does, said once: the check byte, byte fields, host commands, stored
ticks, and the search for the least order key.
-/

namespace Sys2Proof.Machine

/-! ### The check byte (R124, R147) -/

theorem crcByte_self : ∀ r : Byte, crcByte r r = 0#8 := by
  intro r; simp [crcByte, crcShift]

theorem crc8_append (as bs : List Byte) : crc8 (as ++ bs) = bs.foldl crcByte (crc8 as) := by
  simp [crc8, List.foldl_append]

/-- The division over bytes and their check byte leaves 0. -/
@[simp] theorem crc8_withCheck (bs : List Byte) : crc8 (withCheck bs) = 0#8 := by
  rw [withCheck, crc8_append]; exact crcByte_self _

@[simp] theorem withCheck_length (bs : List Byte) : (withCheck bs).length = bs.length + 1 := by
  simp [withCheck]

/-! ### Byte fields (R188) -/

@[simp] theorem be16_length (v : Half) : (be16 v).length = 2 := rfl
@[simp] theorem be24_length (v : Ident) : (be24 v).length = 3 := rfl
@[simp] theorem be32_length (v : Tick) : (be32 v).length = 4 := rfl

theorem be16_join (v : Half) : v.extractLsb' 8 8 ++ v.extractLsb' 0 8 = v := by
  apply BitVec.eq_of_getLsbD_eq
  intro i hi
  simp only [BitVec.getLsbD_append, BitVec.getLsbD_extractLsb']
  by_cases h : i < 8
  · simp [h]
  · simp [h]; rw [show 8 + (i - 8) = i by omega]; simp; omega

theorem be24_join (v : Ident) :
    v.extractLsb' 16 8 ++ v.extractLsb' 8 8 ++ v.extractLsb' 0 8 = v := by
  apply BitVec.eq_of_getLsbD_eq
  intro i hi
  simp only [BitVec.getLsbD_append, BitVec.getLsbD_extractLsb']
  by_cases h : i < 8
  · simp [h]
  · by_cases h' : i < 16
    · simp [h, show i - 8 < 8 by omega, show 8 + (i - 8) = i by omega]
    · simp [h, show ¬ i - 8 < 8 by omega, show i - 8 - 8 < 8 by omega,
        show 16 + (i - 8 - 8) = i by omega]

/-! ### Host commands (R144 to R146) -/

theorem closeSpi_eq_answered (seq : Byte) (r : Reply) (s : State) :
    closeSpi seq r s = s.answered seq r.result r.data := rfl

theorem paramLength_le (c : HostCmd) : paramLength c ≤ Config.maxParams := by
  cases c <;> decide

/-- A host command whose frame passes the tests runs, and its reply is the response. -/
theorem hostCommand_taken {c : HostCmd} {f : HostFrame} {s : State} (h : Taken c f s)
    (run : State → State × Reply) :
    hostCommand c f run s = (run s).1.answered f.seq (run s).2.result (run s).2.data := by
  obtain ⟨seen, len, chk, ready⟩ := h
  have hl : ¬ Config.maxParams < paramLength c := Nat.not_lt.mpr (paramLength_le c)
  have hi : ¬ (s.ctu.device = .init ∧ hostCode c ≠ hostCode .nop) := by
    rintro ⟨hd, hc⟩
    rcases ready with rfl | hr
    · exact hc rfl
    · exact hr hd
  simp [hostCommand, closeFrame, seen, hl, chk, hi, len, closeSpi_eq_answered]

theorem hostCode_injective : ∀ c d : HostCmd, hostCode c = hostCode d → c = d := by
  intro c d h; cases c <;> cases d <;> first | rfl | (simp [hostCode] at h)

theorem hostCmdOf_hostCode (c : HostCmd) : hostCmdOf (hostCode c) = some c := by
  cases c <;> decide

/-! ### Stored ticks (R172) -/

theorem reached_iff (now t : Tick) :
    reached now t = true ↔ t - now = 0#32 ∨ 2 ^ 31 ≤ (t - now).toNat := by
  unfold reached ahead
  rw [Bool.or_eq_true, beq_iff_eq, decide_eq_true_iff]

/-! ### Order keys (R15, R34) -/

theorem before_iff (a b : OrderKey) : a.before b = true ↔ KeyBefore a b := by
  simp [OrderKey.before, KeyBefore, BitVec.lt_def]

theorem KeyBefore.asymm {a b : OrderKey} (h : KeyBefore a b) : ¬ KeyBefore b a := by
  rcases h with h | ⟨h, h'⟩ <;> rintro (g | ⟨g, g'⟩)
  · omega
  · rw [g] at h; omega
  · rw [h] at g; omega
  · omega

/-- What is before neither of two keys is before none of a third that is not before the first. -/
theorem KeyBefore.trans_not {a b c : OrderKey} (h : ¬ KeyBefore a b) (h' : ¬ KeyBefore b c) :
    ¬ KeyBefore a c := by
  obtain ⟨ap, as⟩ := a; obtain ⟨bp, bs⟩ := b; obtain ⟨cp, cs⟩ := c
  simp only [KeyBefore, not_or, not_and, BitVec.toNat_eq] at *
  omega

/-- The numbered slots, slot by slot. -/
theorem numberedSlots_eq (s : State) :
    numberedSlots s = (List.finRange 512).map (fun i => (i, s.slot i)) := by
  apply List.ext_getElem
  · simp [numberedSlots]
  · intro n h1 h2
    simp [numberedSlots, State.slot]

/-- The lowest-numbered FREE slot, slot by slot (R110). -/
theorem lowestFree_eq (s : State) :
    lowestFree s = (List.finRange 512).find? (fun i => (s.slot i).body.isFree) := by
  simp [lowestFree, numberedSlots_eq, List.find?_map, Function.comp_def]

/-- The listed RETIRED slots, slot by slot (R88). -/
theorem retiredFrom_eq (s : State) (start : SlotNo) : retiredFrom s start
    = ((List.finRange 512).filter (fun i => decide (start ≤ i) && (s.slot i).body.isRetired)).take 8 := by
  simp only [retiredFrom, numberedSlots_eq, List.filter_map, List.map_map]
  exact congrArg _ (List.map_id'' (fun _ => rfl) _)

/-- An entry of the live list, with its slot (R15). -/
theorem mem_liveEntries {s : State} {i : SlotNo} {l : LiveEntry} :
    (i, l) ∈ liveEntries s ↔ (s.slot i).body = .live l := by
  simp only [liveEntries, numberedSlots_eq, List.mem_filterMap, List.mem_map, List.mem_finRange, true_and,
    Option.map_eq_some_iff, Prod.mk.injEq, exists_exists_eq_and]
  constructor
  · rintro ⟨j, m, hm, rfl, rfl⟩
    cases h : (s.slot j).body <;> simp_all [SlotBody.live?]
  · intro h; exact ⟨i, l, by simp [h, SlotBody.live?], rfl, rfl⟩

theorem leastKey_mem {xs : List (SlotNo × LiveEntry)} : ∀ {x}, leastKey xs = some x → x ∈ xs := by
  induction xs with
  | nil => intro x h; simp [leastKey] at h
  | cons a rest ih =>
    intro x h
    rw [leastKey] at h
    split at h
    · rw [Option.some.injEq] at h; subst h; exact List.mem_cons_self
    · rename_i y hy
      split at h <;> rw [Option.some.injEq] at h <;> subst h
      · exact List.mem_cons_of_mem _ (ih hy)
      · exact List.mem_cons_self

theorem leastKey_none {xs : List (SlotNo × LiveEntry)} : leastKey xs = none ↔ xs = [] := by
  cases xs with
  | nil => simp [leastKey]
  | cons a rest => rw [leastKey]; split <;> simp; split <;> simp

/-- No entry of the list comes before the one found. -/
theorem leastKey_least {xs : List (SlotNo × LiveEntry)} : ∀ {x}, leastKey xs = some x →
    ∀ y ∈ xs, ¬ KeyBefore y.2.entry.key x.2.entry.key := by
  induction xs with
  | nil => intro x h; simp [leastKey] at h
  | cons a rest ih =>
    intro x h y hy
    rw [leastKey] at h
    split at h
    · rename_i hn
      rw [leastKey_none] at hn; subst hn
      rw [Option.some.injEq] at h; subst h
      rw [List.mem_singleton] at hy; subst hy
      exact fun g => g.asymm g
    · rename_i z hz
      have least := ih hz
      by_cases hb : z.2.entry.key.before a.2.entry.key = true
      · rw [if_pos hb, Option.some.injEq] at h; subst h
        rcases List.mem_cons.mp hy with hy | hy
        · subst hy; exact ((before_iff _ _).mp hb).asymm
        · exact least y hy
      · rw [if_neg hb, Option.some.injEq] at h; subst h
        rcases List.mem_cons.mp hy with hy | hy
        · subst hy; exact fun g => g.asymm g
        · exact KeyBefore.trans_not (least y hy) (fun g => hb ((before_iff _ _).mpr g))

/-- The entry that comes before every other of a list is the one found. -/
theorem leastKey_eq {xs : List (SlotNo × LiveEntry)} {x} (hx : x ∈ xs)
    (h : ∀ y ∈ xs, y ≠ x → KeyBefore x.2.entry.key y.2.entry.key) : leastKey xs = some x := by
  cases hl : leastKey xs with
  | none => rw [leastKey_none] at hl; subst hl; cases hx
  | some z =>
    by_cases hz : z = x
    · rw [hz]
    · exact absurd (h z (leastKey_mem hl) hz) (leastKey_least hl x hx)

end Sys2Proof.Machine
end

