-- ==== Sys2Proof/Laws/Inspect.lean ====
section
/-!
SUPPORT. The numbers, lengths and counts that the inspection commands report.
-/

namespace Sys2Proof.Machine

/-! ### Numbers in parameters (R196) -/

theorem slotParam_eq {w : Half} {i : SlotNo} (h : w.toNat = i.val) : slotParam w = some i := by
  simp [slotParam, h]

theorem slotParam_none {w : Half} (h : 511 < w.toNat) : slotParam w = none := by
  unfold slotParam; rw [dif_neg (by omega)]

theorem portParam_eq {b : Byte} {p : PortNo} (h : b.toNat = p.val) : portParam b = some p := by
  simp [portParam, h]

theorem portParam_none {b : Byte} (h : 7 < b.toNat) : portParam b = none := by
  unfold portParam; rw [dif_neg (by omega)]

theorem recordParam_eq {b : Byte} {r : RecNo} (h : b.toNat = r.val) : recordParam b = some r := by
  simp [recordParam, h]

theorem recordParam_none {b : Byte} (h : 95 < b.toNat) : recordParam b = none := by
  unfold recordParam; rw [dif_neg (by omega)]

/-! ### Lengths of images (R189) -/

theorem rewriteBytes_length (r : Option Ident) : (rewriteBytes r).length = 4 := by
  cases r <;> rfl

theorem actionImage_length (a : Action) : a.image.length = 20 := by
  simp [Action.image, rewriteBytes_length]

theorem definitionImage_length (d : Definition) : d.image.length = 32 := by
  simp [Definition.image, actionImage_length]

theorem runtimeImage_length (h : Handle) (b : SlotBody) (e : Entry) :
    (runtimeImage h b e).length = 20 := by
  simp [runtimeImage]

/-! ### Counts (R1) -/

/-- A slot that was not FREE and enters FREE adds one to the free-slot count. -/
theorem freeCount_setSlot_free (s : State) (i : SlotNo) (era : BitVec 6)
    (h : (s.slot i).body.isFree = false) : freeCount (s.setSlot i ⟨era, .free⟩) = freeCount s + 1 := by
  simp only [freeCount, RouteTable.count, State.setSlot, Vector.toList_set]
  have hlt : i.val < s.rtb.slots.toList.length := by simp
  have : s.rtb.slots.toList[i.val] = s.slot i := by simp [State.slot]
  rw [List.countP_set hlt, this, h]
  simp [SlotBody.isFree]

/-- A handle names a slot that is not FREE (R4). -/
theorem isFree_of_named {s : State} {w : Half} {i : SlotNo} (h : s.named w = some i) :
    (s.slot i).body.isFree = false := by
  unfold State.named at h
  split at h
  · injection h with h; subst h; simp_all
  · cases h

end Sys2Proof.Machine
end

