-- ==== Sys2Proof/Laws/Tickets.lean ====
section
/-!
SUPPORT. What completing and withdrawing tickets does, said once for one ticket and for a run of them.
-/

namespace Sys2Proof.Machine

/-! ### One ticket -/

@[simp] theorem State.setSlot_slot (s : State) (i : SlotNo) : s.setSlot i (s.slot i) = s := by
  simp [State.setSlot, State.slot]

@[simp] theorem State.setPort_port (s : State) (p : PortNo) : s.setPort p (s.port p) = s := by
  simp [State.setPort, State.port]

@[simp] theorem Slot.ticketDone_idem (sl : Slot) : sl.ticketDone.ticketDone = sl.ticketDone := by
  obtain ⟨era, body⟩ := sl
  cases body with
  | free => rfl
  | live l => rfl
  | retired e c => rfl
  | retiring e c k =>
    show (if _ then _ else _ : Slot).ticketDone = if _ then _ else _
    split <;> rfl

theorem clearTicketField_eq (i : SlotNo) (s : State) :
    clearTicketField i s = s.setSlot i (s.slot i).ticketDone := by
  unfold clearTicketField Slot.ticketDone
  cases h : (s.slot i).body with
  | live l => rfl
  | retiring e c k => rfl
  | free => simp
  | retired e c => simp

/-- The completion of a ticket: its record freed, its entry's ticket done (R70). -/
theorem completeTicket_eq {s : State} {r : RecNo} {h : Held} (hh : (s.record r).body.held? = some h) :
    completeTicket r s
      = (freeRecord r s).setSlot h.handle.slot (s.slot h.handle.slot).ticketDone := by
  simp only [completeTicket, hh, clearTicketField_eq]; rfl

/-- A completion reaches the slots and the release unit alone. -/
theorem completeTicket_frame (r : RecNo) (s : State) :
    (completeTicket r s).qp = s.qp ∧ (completeTicket r s).evu = s.evu ∧
    (completeTicket r s).pointer = s.pointer ∧ (completeTicket r s).pending = s.pending ∧
    RestKept s (completeTicket r s) := by
  unfold completeTicket
  split
  · simp [RestKept, CountersKept]
  · simp [clearTicketField_eq, freeRecord, State.setSlot, RestKept, CountersKept]

theorem completed_of_held {s : State} {r : RecNo} {h : Held} (hh : (s.record r).body.held? = some h) :
    Completed [r] s (completeTicket r s) := by
  rw [completeTicket_eq hh]
  constructor
  · intro x
    by_cases e : r = x
    · subst e; simp
    · simp [e, Ne.symm e]
  · simp
  · simp only [State.setSlot_rlu, releaseList_freeRecord]
    congr 1; funext x
    by_cases e : x = r <;> simp [e]
  · intro i
    by_cases e : h.handle.slot = i
    · subst e; simp [State.owningSlot, hh]
    · simp [State.owningSlot, hh, e]

/-! ### Runs of tickets -/

/-- Completing one ticket and then others completes them all, in that order. -/
theorem Completed.cons {r : RecNo} {rs : List RecNo} {s t u : State} (first : Completed [r] s t)
    (others : Completed rs t u) (h : r ∉ rs) : Completed (r :: rs) s u := by
  have kept : ∀ x ∈ rs, t.record x = s.record x := by
    intro x hx
    have : x ≠ r := by rintro rfl; exact h hx
    simp [first.records, this]
  constructor
  · intro x
    rw [others.records, first.records]
    by_cases e : x = r
    · subst e; simp [h]
    · by_cases hx : x ∈ rs <;> simp [e, hx]
  · rw [others.freeOrder, first.freeOrder]; simp
  · rw [others.releaseList, first.releaseList, List.filter_filter]
    congr 1; funext x; simp [Bool.and_comm]
  · intro i
    rw [others.slots, first.slots]
    have own : (∃ x ∈ rs, t.owningSlot x = some i) ↔ ∃ x ∈ rs, s.owningSlot x = some i := by
      constructor <;> rintro ⟨x, hx, e⟩ <;> refine ⟨x, hx, ?_⟩
      · simpa [State.owningSlot, kept x hx] using e
      · simpa [State.owningSlot, kept x hx] using e
    simp only [own, List.mem_cons, exists_eq_or_imp]
    by_cases h1 : s.owningSlot r = some i <;> by_cases h2 : ∃ x ∈ rs, s.owningSlot x = some i <;>
      simp [h1, h2]

theorem Completed.nil (s : State) : Completed [] s s := by
  constructor <;> intros <;> simp

/-- What a run of completions leaves alone. -/
abbrev CompletionFrame (s t : State) : Prop :=
  t.qp = s.qp ∧ t.evu = s.evu ∧ t.pointer = s.pointer ∧ t.pending = s.pending ∧ RestKept s t

/-- The tickets of distinct records that are not FREE complete one after another (R71). -/
theorem completed_completeAll {rs : List RecNo} : ∀ {s : State}, rs.Nodup →
    (∀ r ∈ rs, (s.record r).body.held?.isSome = true) →
    Completed rs s (completeAll rs s) ∧ CompletionFrame s (completeAll rs s) := by
  induction rs with
  | nil => intro s _ _; exact ⟨.nil s, by simp [completeAll, CompletionFrame, RestKept, CountersKept]⟩
  | cons r rest ih =>
    intro s nodup held
    obtain ⟨hr, nodup⟩ := List.nodup_cons.mp nodup
    obtain ⟨h, hh⟩ := Option.isSome_iff_exists.mp (held r List.mem_cons_self)
    have one := completed_of_held hh
    have held' : ∀ x ∈ rest, ((completeTicket r s).record x).body.held?.isSome = true := by
      intro x hx
      have : x ≠ r := by rintro rfl; exact hr hx
      rw [one.records]; simpa [this] using held x (List.mem_cons_of_mem _ hx)
    obtain ⟨others, f⟩ := ih nodup held'
    refine ⟨one.cons others hr, ?_⟩
    obtain ⟨f1, f2, f3, f4, ⟨f5, f6, f7⟩, f8, f9, f10⟩ := f
    obtain ⟨g1, g2, g3, g4, ⟨g5, g6, g7⟩, g8, g9, g10⟩ := completeTicket_frame r s
    exact ⟨f1.trans g1, f2.trans g2, f3.trans g3, f4.trans g4, ⟨f5.trans g5, f6.trans g6, f7.trans g7⟩,
      f8.trans g8, f9.trans g9, f10.trans g10⟩

/-! ### Placing and withdrawing -/

theorem Port.placedAll_one (q : Port) (b : OutBody) :
    q.placedAll [b] = { q with outbound := q.outbound ++ [⟨q.overrun, b⟩], overrun := false } := by
  simp [Port.placedAll, flagged]

@[simp] theorem Port.placedAll_nil (q : Port) : q.placedAll [] = q := by
  simp [Port.placedAll, flagged]

/-- Placing one message and then others places them all. -/
theorem Port.placedAll_cons (q : Port) (b : OutBody) (bs : List OutBody) :
    (q.placedAll [b]).placedAll bs = q.placedAll (b :: bs) := by
  cases bs with
  | nil => simp
  | cons c cs => simp [Port.placedAll, flagged]

theorem place_eq (p : PortNo) (b : OutBody) (s : State) :
    place p b s = s.setPort p ((s.port p).placedAll [b]) := by
  simp [place, Port.placedAll_one]

/-- A withdrawal of a PENDING ticket (R67). -/
theorem withdrew_of_pending {s : State} {r : RecNo} {h : Held} (hp : (s.record r).body = .pending h)
    (reason : WithdrawReason) :
    Withdrew reason [r] s (withdraw reason r s) := by
  have hh : ((place h.owner (.withdrawn (s.ticketId r) h.tag reason) s).record r).body.held? = some h := by
    show (s.record r).body.held? = some h
    rw [hp]; rfl
  have e : withdraw reason r s
      = completeTicket r (place h.owner (.withdrawn (s.ticketId r) h.tag reason) s) := by
    simp only [withdraw, hp]
  rw [e]
  have c := completed_of_held hh
  refine ⟨⟨c.records, c.freeOrder, c.releaseList, c.slots⟩, fun p => ?_⟩
  have : (completeTicket r (place h.owner (.withdrawn (s.ticketId r) h.tag reason) s)).port p
      = (place h.owner (.withdrawn (s.ticketId r) h.tag reason) s).port p := by
    simp only [State.port, (completeTicket_frame r _).1]
  rw [this, place_eq]
  have held : (s.record r).body.held? = some h := by rw [hp]; rfl
  by_cases hq : h.owner = p
  · subst hq; simp [withdrawnFor, held]
  · simp [withdrawnFor, held, hq]

theorem withdraw_frame (reason : WithdrawReason) (r : RecNo) (s : State) :
    (withdraw reason r s).evu = s.evu ∧ (withdraw reason r s).pointer = s.pointer ∧
    (withdraw reason r s).pending = s.pending ∧ RestKept s (withdraw reason r s) := by
  unfold withdraw
  split
  · obtain ⟨-, h⟩ := completeTicket_frame r (place _ (.withdrawn (s.ticketId r) _ reason) s)
    exact h
  · simp [RestKept, CountersKept]
  · simp [RestKept, CountersKept]

/-- Withdrawing one ticket and then others withdraws them all, in that order. -/
theorem Withdrew.cons {reason : WithdrawReason} {r : RecNo} {rs : List RecNo} {s t u : State}
    (first : Withdrew reason [r] s t) (others : Withdrew reason rs t u) (h : r ∉ rs) :
    Withdrew reason (r :: rs) s u := by
  refine ⟨first.completed.cons others.completed h, fun p => ?_⟩
  rw [others.ports, first.ports]
  have kept : ∀ x ∈ rs, t.record x = s.record x := by
    intro x hx
    have : x ≠ r := by rintro rfl; exact h hx
    simp [first.completed.records, this]
  have same : withdrawnFor t reason rs p = withdrawnFor s reason rs p := by
    simp only [withdrawnFor]
    apply List.filterMap_congr
    intro x hx
    simp only [kept x hx, State.ticketId]
  rw [same]
  have parts : withdrawnFor s reason (r :: rs) p
      = withdrawnFor s reason [r] p ++ withdrawnFor s reason rs p := by
    simp only [withdrawnFor, ← List.filterMap_append, List.singleton_append]
  rw [parts]
  have one : withdrawnFor s reason [r] p = [] ∨ ∃ b, withdrawnFor s reason [r] p = [b] := by
    simp only [withdrawnFor, List.filterMap_cons, List.filterMap_nil]
    split
    · exact .inl rfl
    · exact .inr ⟨_, rfl⟩
  rcases one with e | ⟨b, e⟩
  · rw [e]; simp
  · rw [e, Port.placedAll_cons]; rfl

/-- The withdrawal of distinct PENDING tickets, one after another (R69). -/
theorem withdrew_withdrawAll (reason : WithdrawReason) {rs : List RecNo} : ∀ {s : State}, rs.Nodup →
    (∀ r ∈ rs, (s.record r).body.isPending = true) →
    Withdrew reason rs s (withdrawAll reason rs s) := by
  induction rs with
  | nil => intro s _ _; exact ⟨.nil s, fun p => by simp [withdrawnFor, withdrawAll]⟩
  | cons r rest ih =>
    intro s nodup pend
    obtain ⟨hr, nodup⟩ := List.nodup_cons.mp nodup
    obtain ⟨h, hh⟩ : ∃ h, (s.record r).body = .pending h := by
      have := pend r List.mem_cons_self
      cases hb : (s.record r).body <;> simp_all [TicketBody.isPending]
    have one := withdrew_of_pending hh reason
    refine one.cons (ih nodup ?_) hr
    intro x hx
    have : x ≠ r := by rintro rfl; exact hr hx
    rw [one.completed.records]; simpa [this] using pend x (List.mem_cons_of_mem _ hx)

/-- What a run of withdrawals leaves alone. -/
theorem withdrawAll_frame (reason : WithdrawReason) (rs : List RecNo) : ∀ s : State,
    (withdrawAll reason rs s).evu = s.evu ∧ (withdrawAll reason rs s).pointer = s.pointer ∧
    (withdrawAll reason rs s).pending = s.pending ∧ RestKept s (withdrawAll reason rs s) := by
  induction rs with
  | nil => intro s; simp [withdrawAll, RestKept, CountersKept]
  | cons r rest ih =>
    intro s
    obtain ⟨f1, f2, f3, ⟨f4, f5, f6⟩, f7, f8, f9⟩ := ih (withdraw reason r s)
    obtain ⟨g1, g2, g3, ⟨g4, g5, g6⟩, g7, g8, g9⟩ := withdraw_frame reason r s
    exact ⟨f1.trans g1, f2.trans g2, f3.trans g3, ⟨f4.trans g4, f5.trans g5, f6.trans g6⟩,
      f7.trans g7, f8.trans g8, f9.trans g9⟩

/-! ### Retirement -/

/-- The retirement of a LIVE entry without a ticket (R80, R81). -/
theorem retire_none {s : State} {i : SlotNo} {l : LiveEntry} (c : RetireCause)
    (hb : (s.slot i).body = .live l) (ht : l.ticket = none) :
    retire c i s = s.setSlot i (finishedSlot (s.slot i).era c l.entry) := by
  have e : ∀ x, withdrawOf x i s = s := by
    intro x; simp [withdrawOf, hb, SlotBody.ticket?, ht]
  unfold retire
  simp only [hb, SlotBody.isLive, if_true, e]
  cases c <;> simp only [hb, ht]

/-- The retirement of a LIVE entry that owns an OFFERED ticket (R80). -/
theorem retire_offered {s : State} {i : SlotNo} {l : LiveEntry} {k : TicketId} {h : Held} {x : Bool}
    {o : Option Tick} (c : RetireCause) (hb : (s.slot i).body = .live l) (ht : l.ticket = some k)
    (hr : (s.record k.number).body = .offered h x o) :
    retire c i s = s.setSlot i ⟨(s.slot i).era, .retiring l.entry c k⟩ := by
  have e : ∀ y, withdrawOf y i s = s := by
    intro y; simp [withdrawOf, hb, SlotBody.ticket?, ht, withdraw, hr]
  unfold retire
  simp only [hb, SlotBody.isLive, if_true, e]
  cases c <;> (simp only [hb, ht]; rfl)

/-- The withdrawal of the PENDING ticket of a LIVE entry (R67, R68). -/
theorem withdrawOf_pending {s : State} {i : SlotNo} {l : LiveEntry} {k : TicketId} {h : Held}
    (reason : WithdrawReason) (hb : (s.slot i).body = .live l) (ht : l.ticket = some k)
    (hr : (s.record k.number).body = .pending h) (hs : h.handle.slot = i) :
    withdrawOf reason i s = withdraw reason k.number s ∧
    (∀ j, (withdrawOf reason i s).slot j
      = if j = i then ⟨(s.slot i).era, .live { l with ticket := none }⟩ else s.slot j) := by
  have e : withdrawOf reason i s = withdraw reason k.number s := by
    simp [withdrawOf, hb, SlotBody.ticket?, ht]
  refine ⟨e, fun j => ?_⟩
  rw [e, (withdrew_of_pending hr reason).completed.slots]
  simp only [List.mem_singleton, exists_eq_left, State.owningSlot, hr, TicketBody.held?,
    Option.map_some, hs, Option.some.injEq]
  by_cases hj : j = i
  · subst hj; simp [Slot.ticketDone, hb]
  · simp [hj, Ne.symm hj]

/-- The retirement, by removal or expiry, of a LIVE entry that owns a PENDING ticket (R68, R80, R81). -/
theorem retire_pending {s : State} {i : SlotNo} {l : LiveEntry} {k : TicketId} {h : Held}
    {c : RetireCause} {reason : WithdrawReason}
    (hc : c = .removed ∧ reason = .removed ∨ c = .expired ∧ reason = .expired)
    (hb : (s.slot i).body = .live l) (ht : l.ticket = some k)
    (hr : (s.record k.number).body = .pending h) (hs : h.handle.slot = i) :
    retire c i s
      = (withdraw reason k.number s).setSlot i (finishedSlot (s.slot i).era c l.entry) := by
  obtain ⟨e1, e2⟩ := withdrawOf_pending reason hb ht hr hs
  have e3 := e2 i
  rw [if_pos rfl] at e3
  unfold retire
  rcases hc with ⟨rfl, rfl⟩ | ⟨rfl, rfl⟩ <;>
  · simp only [hb, SlotBody.isLive, if_true]
    rw [e1] at e3 ⊢
    simp only [e3]

/-- What an offer writes into the slot of the ticket's entry (R60). -/
theorem shutForOffer_eq (i : SlotNo) (t : Tick) (s : State) :
    shutForOffer i t s = s.setSlot i (match (s.slot i).body with
      | .live l => ⟨(s.slot i).era, .live (l.shutUntil t)⟩
      | .retiring e c k => ⟨(s.slot i).era, .retiring { e with windowOpen := t } c k⟩
      | _ => s.slot i) := by
  unfold shutForOffer
  cases h : (s.slot i).body <;> simp [State.setBody]

/-- The ticket field of a LIVE entry written (R14). -/
theorem setTicketField_eq {s : State} {i : SlotNo} {l : LiveEntry} (t : TicketId)
    (hb : (s.slot i).body = .live l) :
    setTicketField i t s = s.setSlot i ⟨(s.slot i).era, .live { l with ticket := some t }⟩ := by
  unfold setTicketField; simp only [hb]; rfl

end Sys2Proof.Machine
end

