-- ==== Sys2Proof/Laws/Lookup.lean ====
section
/-!
SUPPORT. Arbitration, matching and destinations as the rules say them, and what a decision reads.
-/

namespace Sys2Proof.Machine

/-! ### Arbitration (R26, R27) -/

theorem headLookup_isSome (q : Port) : q.headLookup.isSome = true ↔
    ∃ tag ident kind length rest, q.inbound = .lookup tag ident kind length :: rest := by
  unfold Port.headLookup
  cases q.inbound with
  | nil => simp
  | cons m rest => cases m <;> simp

theorem port_add_sub : ∀ a b : PortNo, a + (b - a) = b := by decide
theorem port_add_sub_self : ∀ a k : PortNo, a + k - a = k := by decide

/-- The first port of the search order that passes a test is the one nearest from the pointer. -/
theorem find_searchOrder {f : PortNo → Bool} (pointer p : PortNo) :
    (searchOrder pointer).find? f = some p ↔
      f p = true ∧ ∀ q, f q = true → (p - pointer).val ≤ (q - pointer).val := by
  unfold searchOrder
  rw [List.find?_map]
  simp only [Option.map_eq_some_iff]
  have sorted := List.pairwise_lt_finRange 8
  constructor
  · rintro ⟨k, hk, rfl⟩
    obtain ⟨h1, as, bs, e, h3⟩ := List.find?_eq_some_iff_append.mp hk
    refine ⟨h1, fun q hq => ?_⟩
    rw [port_add_sub_self]
    have hm : q - pointer ∈ as ++ k :: bs := e ▸ List.mem_finRange _
    rw [e] at sorted
    rcases List.mem_append.mp hm with hm | hm
    · have := h3 _ hm
      simp only [Function.comp, port_add_sub, hq] at this
      cases this
    · rcases List.mem_cons.mp hm with hm | hm
      · rw [hm]
      · exact Nat.le_of_lt (List.rel_of_pairwise_cons (List.pairwise_append.mp sorted).2.1 hm)
  · rintro ⟨h1, h2⟩
    refine ⟨p - pointer, ?_, port_add_sub _ _⟩
    rw [List.find?_eq_some_iff_append]
    refine ⟨by simp only [Function.comp, port_add_sub]; exact h1, ?_⟩
    obtain ⟨as, bs, e⟩ := List.append_of_mem (List.mem_finRange (p - pointer))
    refine ⟨as, bs, e, fun a ha => ?_⟩
    rw [e] at sorted
    have less : a.val < (p - pointer).val :=
      (List.pairwise_append.mp sorted).2.2 a ha _ List.mem_cons_self
    simp only [Function.comp, Bool.not_eq_true']
    by_contra hf
    have := h2 (pointer + a) (by simpa using hf)
    rw [port_add_sub_self] at this
    omega

/-- The lookup event of a granted LOOKUP (R27, R29). -/
theorem lookupEvent_eq {s : State} {p : PortNo} {tag : Byte} {ident : Ident} {kind : Byte} {length : Half}
    {rest : List InMsg} (h : granted s = some p)
    (h2 : (s.port p).inbound = .lookup tag ident kind length :: rest) :
    execLookupEvent s = .next (answerLookup ⟨p, ident, kind, length⟩ tag
      (popInbound p { s with pointer := p + 1 })) := by
  unfold execLookupEvent
  have : (s.port p).headLookup = some (tag, ident, kind, length) := by
    unfold Port.headLookup; rw [h2]
  simp only [h, this]

/-! ### Matching and destinations (R33, R39) -/

theorem matchesQuery_iff (s : State) (q : Query) (l : LiveEntry) :
    matchesQuery s q l = true ↔ Matches s q l := by
  simp only [matchesQuery, Matches, dormant, SegSet.has, Bool.and_eq_true, Bool.not_eq_true',
    Bool.or_eq_true, beq_iff_eq, Bool.and_eq_false_iff, beq_eq_false_iff_ne, and_assoc,
    Bool.not_eq_false', ← imp_iff_not_or]

theorem segBit_has (p q : PortNo) : (segBit p).getLsbD q.val = decide (p = q) := by
  revert p q; decide

/-- A segment is in the set of OPEN ports exactly when its port is OPEN. -/
theorem openPorts_has (s : State) (p : PortNo) :
    (openPorts s).getLsbD p.val = true ↔ (s.port p).state = .opened := by
  have fold : ∀ (ps : List PortNo) (set : SegSet),
      (ps.foldl (fun set p => if (s.port p).state = .opened then set ||| segBit p else set) set).getLsbD
        p.val = true ↔ set.getLsbD p.val = true ∨ p ∈ ps ∧ (s.port p).state = .opened := by
    intro ps
    induction ps with
    | nil => intro set; simp
    | cons a rest ih =>
      intro set
      rw [List.foldl_cons, ih, List.mem_cons]
      by_cases ha : (s.port a).state = .opened
      · rw [if_pos ha, BitVec.getLsbD_or, Bool.or_eq_true, segBit_has, decide_eq_true_eq]
        constructor
        · rintro ((h | rfl) | h)
          · exact .inl h
          · exact .inr ⟨.inl rfl, ha⟩
          · exact .inr ⟨.inr h.1, h.2⟩
        · rintro (h | ⟨rfl | h, h'⟩)
          · exact .inl (.inl h)
          · exact .inl (.inr rfl)
          · exact .inr ⟨h, h'⟩
      · rw [if_neg ha]
        constructor
        · rintro (h | h)
          · exact .inl h
          · exact .inr ⟨.inr h.1, h.2⟩
        · rintro (h | ⟨rfl | h, h'⟩)
          · exact .inl h
          · exact absurd h' ha
          · exact .inr ⟨h, h'⟩
  rw [openPorts, fold]; simp

/-! ### What a decision reads -/

/-- Taking a message from an inbound queue leaves every port's state, quota, notices and outbound queue. -/
theorem popInbound_kept (s : State) (p q : PortNo) :
    ((popInbound p s).port q).state = (s.port q).state ∧
    ((popInbound p s).port q).quota = (s.port q).quota ∧
    ((popInbound p s).port q).outbound = (s.port q).outbound ∧
    ((popInbound p s).port q).countedNotices = (s.port q).countedNotices := by
  rw [port_popInbound]
  split
  · rename_i h; subst h; exact ⟨rfl, rfl, rfl, rfl⟩
  · exact ⟨rfl, rfl, rfl, rfl⟩

@[simp] theorem openPorts_popInbound (s : State) (p : PortNo) :
    openPorts (popInbound p s) = openPorts s := by
  unfold openPorts; simp only [(popInbound_kept s p _).1]

@[simp] theorem destinations_popInbound (s : State) (p own : PortNo) (a : Action) :
    destinations (popInbound p s) own a = destinations s own a := by
  unfold destinations; rw [openPorts_popInbound]

@[simp] theorem hasQuota_popInbound (s : State) (p q : PortNo) :
    hasQuota (popInbound p s) q = hasQuota s q := by
  obtain ⟨h1, h2, -, h4⟩ := popInbound_kept s p q
  unfold hasQuota load; rw [h1, h2, h4]; rfl

/-- A decision does not read the inbound queues or the pointer. -/
theorem decideEntry_popInbound (s : State) (p : PortNo) (n : PortNo) (q : Query) (l : LiveEntry) :
    decideEntry (popInbound p { s with pointer := n }) q l = decideEntry s q l := by
  unfold decideEntry pacing creation ownedPending ownsOffered
  simp only [destinations_popInbound, hasQuota_popInbound, popInbound_record, popInbound_rlu]; rfl

/-- The claims of a match, as the match count and the deadline of R35 say them. -/
theorem matched_eq_counted (now : Tick) (l : LiveEntry) : l.matched now = l.counted now := by
  unfold LiveEntry.matched LiveEntry.counted
  have count : ∀ n : BitVec 16, (if n = 0xFFFF#16 then 0xFFFF#16 else n + 1#16)
      = BitVec.ofNat 16 (min 65535 (n.toNat + 1)) := by
    intro n
    have := n.isLt
    apply BitVec.eq_of_toNat_eq
    split
    · rename_i h; subst h; rfl
    · rename_i h
      have : n.toNat ≠ 65535 := fun g => h (BitVec.eq_of_toNat_eq g)
      simp; omega
  rw [count]
  cases l.entry.action.lifetimeKind <;> simp

end Sys2Proof.Machine
end

