-- ==== Sys2Proof/Laws/Wire.lean ====
section
/-!
SUPPORT. What is read from a wire after it was written: the receiver over escaped bytes, SPI bits, the
parts of a host frame, and the fields and codes of an image.
-/

namespace Sys2Proof.Machine

open Sys2Proof

/-! ### The receiver (R123) -/

theorem receiveBytes_append (p : PortNo) : ∀ (as bs : List Byte) (r : LineReceiver),
    receiveBytes p r (as ++ bs)
      = ((receiveBytes p (receiveBytes p r as).1 bs).1,
          (receiveBytes p r as).2 ++ (receiveBytes p (receiveBytes p r as).1 bs).2) := by
  intro as
  induction as with
  | nil => intro bs r; simp [receiveBytes]
  | cons a rest ih => intro bs r; simp only [List.cons_append, receiveBytes, ih]; simp

/-- Escaped content bytes join the content so far, held to the ninth, and bring no event. -/
theorem receiveBytes_escapeAll (p : PortNo) : ∀ (bs : List Byte) (content : LinkContent),
    content.bytes.length ≤ 9 →
    receiveBytes p (.frame content false) (escapeAll bs)
      = (.frame ⟨(content.bytes ++ bs).take 9,
          content.tooLong || decide (9 < (content.bytes ++ bs).length)⟩ false, []) := by
  intro bs
  induction bs with
  | nil =>
    intro content h
    simp [escapeAll, receiveBytes, List.take_of_length_le h, Nat.not_lt.2 h]
  | cons b rest ih =>
    intro content h
    rw [show escapeAll (b :: rest) = escapeByte b ++ escapeAll rest from rfl, receiveBytes_append]
    have one : receiveBytes p (.frame content false) (escapeByte b)
        = (.frame (content.push b) false, []) := by
      unfold escapeByte
      split
      · rename_i h
        rcases h with h | h <;> subst h <;>
          simp [receiveBytes, receiveByte, Config.delimiter, Config.escape, Config.escapeMask]
      · rename_i h
        rw [not_or] at h
        simp [receiveBytes, receiveByte, h.1, h.2]
    rw [one, LinkContent.push]
    split
    · rename_i room
      have room : content.bytes.length < 9 := room
      simp only [ih { content with bytes := content.bytes ++ [b] } (by simp; omega)]
      simp
    · rename_i full
      have full : content.bytes.length = 9 := Nat.le_antisymm h (Nat.not_lt.1 full)
      simp only [ih { content with tooLong := true } h]
      simp [full]

/-! ### The transmitter (R123, R133) -/

/-- A running device's OPEN port sends its outbound queue. -/
theorem toSend_opened {s : State} {p : PortNo} (running : held s = false) (device : s.ctu.device ≠ .init)
    (opened : (s.port p).state = .opened) : toSend s p = (s.port p).outbound := by
  simp [toSend, running, device, opened]

/-- A CLOSED port sends no message. -/
theorem toSend_closed {s : State} {p : PortNo} (closed : (s.port p).state = .closed) : toSend s p = [] := by
  simp [toSend, closed]

/-- With nothing to send the link carries delimiters. -/
theorem txByte_idle {s : State} {p : PortNo} (idle : toSend s p = []) (k : Nat) :
    txByte s p k = Config.delimiter := by
  cases k <;> simp [txByte, idle, lineFrames]

@[simp] theorem lineFrames_singleton (content : List Byte) : lineFrames [content] = lineFrame content := rfl

/-- A frame ahead of others stands as it does alone, its closing delimiter the next one's opening. -/
theorem lineFrames_cons (content : List Byte) (rest : List (List Byte)) :
    lineFrames (content :: rest) = (lineFrame content).dropLast ++ lineFrames rest := by
  simp only [lineFrames, lineFrame, List.dropLast_concat]

/-! ### SPI bits (R141) -/

/-- The bits of a byte are received as that byte. -/
@[simp] theorem spiBytes_spiBits (b : Byte) (rest : List Bool) :
    spiBytes (spiBits b ++ rest) = b :: spiBytes rest := by
  simp only [spiBits, List.cons_append, List.nil_append, spiBytes]
  congr 1
  revert b
  decide +kernel

/-- The bits of a partial byte are discarded. -/
theorem spiBytes_partial : ∀ {bits : List Bool}, bits.length < 8 → spiBytes bits = []
  | [], _ | [_], _ | [_, _], _ | [_, _, _], _ | [_, _, _, _], _ | [_, _, _, _, _], _
  | [_, _, _, _, _, _], _ | [_, _, _, _, _, _, _], _ => rfl
  | _ :: _ :: _ :: _ :: _ :: _ :: _ :: _ :: _, h => absurd h (by simp only [List.length_cons]; omega)

/-! ### Host frames (R142) -/

/-- The parts of a command frame stand where R142 puts them, whatever follows. -/
theorem frameBytes_parts (code : Byte) (f : HostFrame) (extra : List Byte) (h : f.params.length ≤ 60) :
    frameComplete (frameBytes code f ++ extra) = true ∧
    byteAt (frameBytes code f ++ extra) 0 = f.seq ∧ byteAt (frameBytes code f ++ extra) 1 = code ∧
    (byteAt (frameBytes code f ++ extra) 2).toNat = f.params.length ∧
    ((frameBytes code f ++ extra).drop 3).take f.params.length = f.params ∧
    byteAt (frameBytes code f ++ extra) (f.params.length + 3) = f.check := by
  have len : (byteAt (frameBytes code f ++ extra) 2).toNat = f.params.length := by
    simp [byteAt, frameBytes, countByte]; omega
  refine ⟨?_, rfl, rfl, len, ?_, ?_⟩
  · unfold frameComplete
    rw [len]
    have : f.params.length ≤ Config.maxParams := h
    simp only [Bool.and_eq_true, decide_eq_true_iff]
    refine ⟨⟨?_, this⟩, ?_⟩
    · simp [frameBytes]
    · simp [frameBytes]
  · simp [frameBytes]
  · simp [byteAt, frameBytes]

/-! ### Images (R188, R189) -/

theorem be16_append (a b : Byte) : be16 (a ++ b) = [a, b] := by
  have parts : (a ++ b : BitVec 16).extractLsb' 8 8 = a ∧ (a ++ b : BitVec 16).extractLsb' 0 8 = b := by
    constructor <;>
      (apply BitVec.eq_of_getLsbD_eq; intro i hi
       simp only [BitVec.getLsbD_extractLsb', BitVec.getLsbD_append, hi, decide_true, Bool.true_and])
    · rw [if_neg (by omega)]; congr 1; omega
    · rw [if_pos (by omega)]; congr 1; omega
  simp only [be16, parts.1, parts.2]

theorem be24_append (a b c : Byte) : be24 (a ++ b ++ c) = [a, b, c] := by
  have parts : (a ++ b ++ c : BitVec 24).extractLsb' 16 8 = a ∧
      (a ++ b ++ c : BitVec 24).extractLsb' 8 8 = b ∧ (a ++ b ++ c : BitVec 24).extractLsb' 0 8 = c := by
    refine ⟨?_, ?_, ?_⟩ <;>
      (apply BitVec.eq_of_getLsbD_eq; intro i hi
       simp only [BitVec.getLsbD_extractLsb', BitVec.getLsbD_append, hi, decide_true, Bool.true_and])
    · rw [if_neg (by omega), if_neg (by omega)]; congr 1; omega
    · rw [if_neg (by omega), if_pos (by omega)]; congr 1; omega
    · rw [if_pos (by omega)]; congr 1; omega
  simp only [be24, parts.1, parts.2.1, parts.2.2]

theorem disposition_code (b : Byte) (h : ¬ 1 < b.toNat) : (Disposition.ofCode b).code = b := by
  unfold Disposition.ofCode
  split
  · rename_i h; rw [h]; rfl
  · rename_i h'
    have : b.toNat ≠ 1 := fun g => h' (BitVec.eq_of_toNat_eq g)
    apply BitVec.eq_of_toNat_eq; show 0 = _; omega

theorem paceMode_code (b : Byte) (h : ¬ 1 < b.toNat) : (PaceMode.ofCode b).code = b := by
  unfold PaceMode.ofCode
  split
  · rename_i h; rw [h]; rfl
  · rename_i h'
    have : b.toNat ≠ 1 := fun g => h' (BitVec.eq_of_toNat_eq g)
    apply BitVec.eq_of_toNat_eq; show 0 = _; omega

theorem lifetimeKind_code (b : Byte) (h : ¬ 2 < b.toNat) : (LifetimeKind.ofCode b).code = b := by
  unfold LifetimeKind.ofCode
  split
  · rename_i h; rw [h]; rfl
  · split
    · rename_i h; rw [h]; rfl
    · rename_i h1 h2
      have : b.toNat ≠ 1 := fun g => h1 (BitVec.eq_of_toNat_eq g)
      have : b.toNat ≠ 2 := fun g => h2 (BitVec.eq_of_toNat_eq g)
      apply BitVec.eq_of_toNat_eq; show 0 = _; omega

theorem kindCriterion_code (b : Byte) (h : ¬ 2 < b.toNat) : (KindCriterion.ofCode b).code = b := by
  unfold KindCriterion.ofCode
  split
  · rename_i h; rw [h]; rfl
  · split
    · rename_i h; rw [h]; rfl
    · rename_i h1 h2
      have : b.toNat ≠ 1 := fun g => h1 (BitVec.eq_of_toNat_eq g)
      have : b.toNat ≠ 2 := fun g => h2 (BitVec.eq_of_toNat_eq g)
      apply BitVec.eq_of_toNat_eq; show 0 = _; omega

theorem entryFlags_code : ∀ b : Byte, ¬ 16 ≤ b.toNat → (EntryFlags.ofCode b).code = b := by
  decide +kernel

/-- Every test of an image that passes is passed. -/
theorem firstFailing_none {tests : List (Nat × Bool)} (h : firstFailing tests = none) :
    ∀ t ∈ tests, t.2 = false := by
  intro t ht
  simp only [firstFailing, Option.map_eq_none_iff, List.find?_eq_none] at h
  simpa using h t ht

/-- The number reported is that of a test that fails, and every test before it passes. -/
theorem firstFailing_some {tests : List (Nat × Bool)} {n : Nat} (h : firstFailing tests = some n) :
    ∃ before after, tests = before ++ (n, true) :: after ∧ ∀ t ∈ before, t.2 = false := by
  simp only [firstFailing, Option.map_eq_some_iff] at h
  obtain ⟨⟨m, failed⟩, found, rfl⟩ := h
  obtain ⟨holds, before, after, parts, passed⟩ := List.find?_eq_some_iff_append.1 found
  obtain rfl : failed = true := holds
  exact ⟨before, after, parts, fun t ht => by simpa using passed t ht⟩

/-- A field of an image that stands inside another. -/
@[simp] theorem byteAt_drop (bs : List Byte) (base n : Nat) :
    byteAt (bs.drop base) n = byteAt bs (base + n) := by
  simp [byteAt, List.getElem?_drop]

end Sys2Proof.Machine
end

