-- ==== Sys2Proof/Tests/Slice0.lean ====
section
/-!
SUPPORT. Tests: the smoke test of WellFormed, worked values of the spec, one event at a time, and for each
statement with hypotheses a witness that meets them together.
-/

namespace Sys2Proof.Tests

open Sys2Proof Sys2Proof.Machine

set_option Elab.async false

/-! ### States and commands the tests use -/

/-- The state after an event. -/
def after (c : Instr) (s : State) : State :=
  match exec c s with
  | .next t => t
  | .fault _ => s
  | .refused _ => s

/-- The frame of a host command with its check byte (R142, R147). -/
def frame (c : HostCmd) (seq : Byte) (params : List Byte) : HostFrame :=
  ⟨seq, params, crc8 ([seq, hostCode c, countByte params.length] ++ params)⟩

/-- The device after reset, taken to a device state and a tick. -/
def device (d : DeviceState) (now : Tick) : State :=
  { State.reset with ctu := { State.reset.ctu with device := d, now := now } }

/-- The device with RESET# and the power-on hold as given. -/
def pins (low hold : Bool) : State :=
  { State.reset with ctu := { State.reset.ctu with resetLow := low, powerHold := hold } }

/-- An OPEN port with quota 4 (11.1). -/
def openPort (inbound : List InMsg) : Port :=
  { Port.reset with state := .opened, quota := 4, inbound := inbound, receiver := .frame }

/-- QP0 to QP3 OPEN, QP0 with these inbound messages. -/
def gateway (d : DeviceState) (now : Tick) (inbound : List InMsg) : State :=
  ((((device d now).setPort 0 (openPort inbound)).setPort 1 (openPort [])).setPort 2
    (openPort [])).setPort 3 (openPort [])

/-- The action fields of entry A (11.1): FORWARD to segments 2 and 3, pace interval 20, DEFER. -/
def actionA : Action :=
  ⟨.forward, 0x0C#8, none, 0x00A0#16, 0#16, 2047#16, 20#16, .defer, .permanent, 0#24,
    ⟨false, false, false, false⟩⟩

/-- Entry A (11.1) with action fields, a window state and a ticket as given. -/
def entry (a : Action) (window : WindowState) (ticket : Option TicketId) : LiveEntry :=
  ⟨⟨⟨100#16, 0x000300#24, 0xFFFF00#24, .data, 0x03#8, a⟩, 0#32, 0#16, 2140#32⟩, window, none, ticket⟩

/-- A state with an entry LIVE in slot 0, era 0. -/
def withEntry (l : LiveEntry) (s : State) : State := s.setSlot 0 ⟨0#6, .live l⟩

/-- The lookup of 11.3: DATA, identifier 0x000311, length 8, from QP0. -/
def query : Query := ⟨0, 0x000311#24, 1#8, 8#16⟩

/-- That LOOKUP as it waits at QP0. -/
def lookup (tag : Byte) : InMsg := .lookup tag query.ident query.kind query.length

/-- What a ticket of the entry in slot 0 holds: due tick 2140, tag 0x02 (11.3). -/
def ticketOf (owner : PortNo) : Held := ⟨⟨0#6, 0⟩, owner, 0x02#8, 0x000311#24, 2140#32⟩

/-- The id 0x0100 of record 0, serial 1 (11.3). -/
def id0 : TicketId := ⟨1#4, 0⟩

/-- A state whose record 0 holds a ticket under serial 1, off the free order. -/
def withTicket (b : TicketBody) (s : State) : State :=
  { s.setRecord 0 ⟨1#4, b⟩ with rlu := { (s.setRecord 0 ⟨1#4, b⟩).rlu with
      freeOrder := (List.finRange 96).tail
      releaseList := if b.isPending then [0] else [] } }

/-- The paced gateway at a tick: A in slot 0 owning record 0's ticket, QP0 with these messages. -/
def paced (d : DeviceState) (now : Tick) (b : TicketBody) (inbound : List InMsg) : State :=
  withTicket b (withEntry (entry actionA .shut (some id0)) (gateway d now inbound))

/-- The definition image of A (11.1, R189). -/
def imageA : List Byte :=
  [0x00#8, 100#8, 0x00#8, 0x03#8, 0x00#8, 0xFF#8, 0xFF#8, 0x00#8, 1#8, 0x03#8,
    0#8, 0x0C#8, 0#8, 0#8, 0#8, 0#8, 0x00#8, 0xA0#8, 0#8, 0#8, 0x07#8, 0xFF#8, 0#8, 20#8, 1#8, 0#8,
    0#8, 0#8, 0#8, 0#8, 0#8, 0#8]

/-- The definition image of B (11.1): any identifier, ANY, segments 0 to 3, DISCARD, ESSENTIAL. -/
def imageB : List Byte :=
  [0x00#8, 200#8, 0#8, 0#8, 0#8, 0#8, 0#8, 0#8, 0#8, 0x0F#8,
    1#8, 0#8, 0#8, 0#8, 0#8, 0#8, 0x00#8, 0xB0#8, 0#8, 0#8, 0x07#8, 0xFF#8, 0#8, 0#8, 0#8, 0#8,
    0#8, 0#8, 0#8, 2#8, 0#8, 0#8]

/-- The definition image of C (11.1): POLL, segment 2, FORWARD to segment 0, FIXED 60000, ESSENTIAL. -/
def imageC : List Byte :=
  [0x00#8, 50#8, 0x00#8, 0x07#8, 0xF0#8, 0xFF#8, 0xFF#8, 0xF0#8, 2#8, 0x04#8,
    0#8, 0x01#8, 0#8, 0#8, 0#8, 0#8, 0x00#8, 0xC0#8, 0#8, 0#8, 0x07#8, 0xFF#8, 0#8, 0#8, 0#8, 2#8,
    0x00#8, 0xEA#8, 0x60#8, 2#8, 0#8, 0#8]

/-- A state with a transaction and its staged ops. -/
def editing (txn : TxnState) (ops : List Op) (s : State) : State :=
  { s with edu := { s.edu with txn := txn, ops := ops } }

/-! ### WellFormed: each check refuses an ill-formed term -/

theorem test_wellFormed_params : (Instr.nop ⟨0#8, List.replicate 61 0#8, 0#8⟩).wellFormed = false := by
  decide
theorem test_wellFormed_params_60 : (Instr.nop ⟨0#8, List.replicate 60 0#8, 0#8⟩).wellFormed = true := by
  decide
theorem test_wellFormed_frameError :
    (Instr.frameError [0x01#8, 0x00#8, 0x00#8, 0x6B#8]).wellFormed = false := by decide
theorem test_wellFormed_badCommand :
    (Instr.badCommand 0x40#8 (frame .nop 1#8 [])).wellFormed = false := by decide
theorem test_wellFormed_badCommand_params :
    (Instr.badCommand 0x36#8 ⟨0#8, List.replicate 61 0#8, 0#8⟩).wellFormed = false := by decide
theorem test_wellFormed_frameArrival : (Instr.frameArrival 0 ⟨[], false⟩).wellFormed = false ∧
    (Instr.frameArrival 0 ⟨List.replicate 10 0x11#8, false⟩).wellFormed = false ∧
    (Instr.frameArrival 0 ⟨List.replicate 8 0x11#8, true⟩).wellFormed = false := by decide
theorem test_wellFormed_badEscape : (Instr.badEscape 0 0xF5#8).wellFormed = false ∧
    (Instr.badEscape 0 0xF4#8).wellFormed = false ∧ (Instr.badEscape 0 0xB5#8).wellFormed = false := by
  decide

/-! ### The wires, byte by byte (R123, R124, R142, R147, R192) -/

/-- NOP, sequence 1: 01 00 00 and the remainder of its division, worked by hand. -/
theorem test_decode_nop :
    decodeMosi [0x01#8, 0x00#8, 0x00#8, 0x6B#8] = .nop ⟨0x01#8, [], 0x6B#8⟩ ∧
      frameChecks 0x00#8 ⟨0x01#8, [], 0x6B#8⟩ = true := by decide +kernel
/-- SET_SUPERVISION 1000 (11.1): code 0x11, two parameter bytes 03 E8 (R194). -/
theorem test_decode_setSupervision :
    decodeMosi [0x02#8, 0x11#8, 0x02#8, 0x03#8, 0xE8#8, 0x55#8, 0xFF#8]
      = .setSupervision ⟨0x02#8, [0x03#8, 0xE8#8], 0x55#8⟩ := by decide +kernel
/-- PORT_OPEN of QP3, quota 4: code 0x18 (R194). -/
theorem test_decode_portOpen :
    decodeMosi [0x03#8, 0x18#8, 0x02#8, 3#8, 4#8, 0x00#8] = .portOpen ⟨0x03#8, [3#8, 4#8], 0x00#8⟩ := by
  decide
/-- COLLECT 0x0004: code 0x34 (R194). -/
theorem test_decode_collect :
    decodeMosi [0x04#8, 0x34#8, 0x02#8, 0x00#8, 0x04#8, 0x11#8]
      = .collect ⟨0x04#8, [0x00#8, 0x04#8], 0x11#8⟩ := by decide
/-- Code 0x36 is answered BAD_COMMAND (R194), and two bytes are no frame (R145). -/
theorem test_decode_refused :
    decodeMosi [0x05#8, 0x36#8, 0x00#8, 0x00#8] = .badCommand 0x36#8 ⟨0x05#8, [], 0x00#8⟩ ∧
      decodeMosi [0x05#8, 0x00#8] = .frameError [0x05#8, 0x00#8] := by decide
/-- The bits of that NOP, most significant first, and three bits of a byte cut off by CS# (R141). -/
theorem test_decodeMosiBits :
    decodeMosiBits ([false, false, false, false, false, false, false, true] ++ List.replicate 16 false ++
      [false, true, true, false, true, false, true, true] ++ [true, true, true])
      = .nop ⟨0x01#8, [], 0x6B#8⟩ := by decide +kernel
/-- An ACK of 0x01B5 with its delimiter byte escaped: B5, 11, 01, B4 F5, check, B5. -/
theorem test_receive_ack :
    (receiveBytes 1 .hunt
        [0xB5#8, 0x11#8, 0x01#8, 0xB4#8, 0xF5#8, crc8 [0x11#8, 0x01#8, 0xB5#8], 0xB5#8]).2
      = [.huntDelimiter 1, .frameArrival 1 ⟨InMsg.content (.ack 0x01B5#16), false⟩] := by decide +kernel
/-- A byte other than F4, F5 and the delimiter after the escape byte (R125). -/
theorem test_receive_badEscape :
    receiveBytes 1 (.frame .empty false) [0x11#8, 0xB4#8, 0x00#8, 0x22#8] = (.hunt, [.badEscape 1 0x00#8]) := by
  decide
/-- A tenth content byte is not held, and the frame is counted as too long (R123). -/
theorem test_receive_tooLong :
    (receiveBytes 1 (.frame .empty false) (List.replicate 9 0x10#8 ++ [0xB4#8, 0xF5#8, 0xB5#8])).2
      = [.frameArrival 1 ⟨List.replicate 9 0x10#8, true⟩] ∧
    (after (.frameArrival 0 ⟨InMsg.content (lookup 0x01#8), true⟩) (gateway .active 0#32 [])).evu.flags
      = 256#11 := by decide +kernel
/-- The frame of a PING of tag 0x00 as R124 gives it; a NONE with tag 0xB5 as QL3_TX carries it, then idle
fill (R123, R192); and the idle fill of a link in INIT (R139). -/
theorem test_txByte :
    lineFrame (InMsg.content (.ping 0x00#8)) = [0xB5#8, 0x13#8, 0x00#8, 0x68#8, 0xB5#8] ∧
    (let s := (device .standby 0#32).setPort 3 { openPort [] with outbound := [⟨true, .noMatch 0xB5#8⟩] }
     (List.range 9).map (txByte s 3)
      = [0xB5#8, 0x23#8, 0x01#8, 0xB4#8, 0xF5#8, crc8 [0x23#8, 0x01#8, 0xB5#8], 0xB5#8, 0xB5#8, 0xB5#8]) ∧
    txByte State.reset 3 0 = 0xB5#8 := by decide +kernel
/-- PING, tag 0x00: 13 00 and check 0x68, worked by hand. -/
theorem test_parse_ping : parseInbound [0x13#8, 0x00#8, 0x68#8] = some (.ping 0x00#8) := by decide +kernel

/-! ### Names and images (R4, R52, R189) -/

/-- Slot 20, era 5 has the handle 0x0A14, and slot 3, era 1 has 0x0203 (11.6). -/
theorem test_handle_word : Handle.word ⟨5#6, 20⟩ = 0x0A14#16 ∧ Handle.word ⟨1#6, 3⟩ = 0x0203#16 := by decide
/-- Ids run to 0x0F5F (R52); record 1, serial 1 is 0x0101 (11.4). -/
theorem test_ticket_word :
    TicketId.word ⟨15#4, 95⟩ = 0x0F5F#16 ∧ TicketId.word ⟨1#4, 1⟩ = 0x0101#16 := by decide
theorem test_imageA_definition : Definition.ofImage imageA = (entry actionA .opened none).entry.definition := by
  decide +kernel
/-- A rewrite present byte of 2 fails field 8, and a length max below the min field 11 (R101, R105). -/
theorem test_definitionFailure :
    definitionFailure imageA = none ∧ definitionFailure (imageA.set 12 2#8) = some 8 ∧
      definitionFailure ((imageA.set 19 60#8).set 20 0#8 |>.set 21 40#8) = some 11 := by decide +kernel

/-! ### Reset and start-up (11.1) -/

theorem test_powerOn : (after (.powerOn false) (device .active 7#32)).ctu.device = .init ∧
    held (after (.powerOn false) (device .active 7#32)) = true := by decide +kernel
theorem test_powerOnHoldEnd : held (after .powerOnHoldEnd (pins false true)) = false := by decide +kernel
theorem test_hardReset : (after .hardReset (device .active 7#32)).ctu.cause = .pin := by decide +kernel
theorem test_resetRelease : held (after .resetRelease (pins true false)) = false ∧
    (after .resetRelease (pins true false)).ctu.device = .init := by decide +kernel
/-- Steps 1 and 3 of 11.1: status words 0x0200 and 0x4600. -/
theorem test_memoryClearComplete : statusWord State.reset = 0x0200#16 ∧
    statusWord (after .memoryClearComplete State.reset) = 0x4600#16 := by decide +kernel
/-- Steps 7 and 8 of 11.1: three INSERTs take the free-slot count to 509 under generation 1. -/
theorem test_cutover :
    let s := editing .building [.insert imageA, .insert imageB, .insert imageC] (device .standby 40#32)
    statusWord s = 0x6200#16 ∧ statusWord (after .cutover s) = 0x45FD#16 ∧
      (after .cutover s).edu.result.handles.map Handle.word = [0x0000#16, 0x0001#16, 0x0002#16] ∧
      ((after .cutover s).slot 2).body.deadlineOr0 = 60040#32 := by decide +kernel
/-- Step 11 of 11.1: the supervision expiry tick is 2000. -/
theorem test_start :
    let s : State := { device .standby 1000#32 with
      ctu := { (device .standby 1000#32).ctu with window := 1000#16 } }
    (after (.start (frame .start 9#8 [])) s).ctu.timer = some 2000#32 ∧
      (after (.start (frame .start 9#8 [])) s).hpt.response = ⟨9#8, .ok, []⟩ := by decide +kernel
theorem test_setSupervision :
    (after (.setSupervision (frame .setSupervision 2#8 [0x03#8, 0xE8#8])) (device .standby 30#32)).ctu.window
      = 1000#16 := by decide +kernel
/-- The value 1001 is BAD_PARAM, and 1000 is taken (R171). -/
theorem test_setTimebase :
    (after (.setTimebase (frame .setTimebase 1#8 [0x03#8, 0xE9#8])) (device .standby 0#32)).hpt.response.result
      = .badParam ∧
    (after (.setTimebase (frame .setTimebase 1#8 [0x03#8, 0xE8#8])) (device .standby 0#32)).ctu.tickPeriod
      = 1000#16 := by decide +kernel
/-- The tick after 4,294,967,295 is 0 (R170). -/
theorem test_timebaseTick : (after .timebaseTick (device .active 0xFFFFFFFF#32)).ctu.now = 0#32 := by
  decide +kernel

/-! ### A paced route (11.3, 11.4) -/

/-- Tick 2100, window OPEN: ROUTE to segments 2 and 3, SHUT for 20 ticks. -/
theorem test_lookup_route :
    let s := withEntry (entry actionA .opened none) (gateway .active 2100#32 [lookup 0x01#8])
    ((after .lookupEvent s).port 0).outbound
      = [⟨false, .route 0x01#8 0x00A0#16 0x0C#8 0x000311#24 0#8⟩] ∧
    (after .lookupEvent s).slot 0 = ⟨0#6, .live { entry actionA .shut none with
      entry := { (entry actionA .shut none).entry with matchCount := 1#16, windowOpen := 2120#32 } }⟩ := by
  decide +kernel
/-- Tick 2110, window SHUT to 2140: record 0 becomes PENDING with the id 0x0100. -/
theorem test_lookup_creates :
    let s := withEntry (entry actionA .shut none) (gateway .active 2110#32 [lookup 0x02#8])
    ((after .lookupEvent s).port 0).outbound = [⟨false, .defer 0x02#8 ⟨1#4, 0⟩ 2140#32 0#8⟩] ∧
      (after .lookupEvent s).record 0 = ⟨1#4, .pending (ticketOf 0)⟩ ∧
      (after .lookupEvent s).rlu.releaseList = [0] := by decide +kernel
/-- Tick 2120: QP0's lookup supersedes QP1's ticket; SUPERSEDED carries the old id and tag. -/
theorem test_lookup_supersedes :
    let s := paced .active 2120#32 (.pending (ticketOf 1)) [lookup 0x11#8]
    ((after .lookupEvent s).port 1).outbound = [⟨false, .superseded ⟨1#4, 0⟩ 0x02#8⟩] ∧
      ((after .lookupEvent s).port 0).outbound = [⟨false, .defer 0x11#8 ⟨2#4, 0⟩ 2140#32 0#8⟩] := by
  decide +kernel
/-- Tick 2140: the ticket is offered to its owner. -/
theorem test_dueExpiry :
    let s := paced .active 2140#32 (.pending (ticketOf 1)) []
    ((after .dueExpiry s).port 1).outbound
      = [⟨false, .release ⟨1#4, 0⟩ 0x02#8 0x00A0#16 0x0C#8 0x000311#24⟩] ∧
      ((after .dueExpiry s).record 0).body = .offered (ticketOf 1) false none := by decide +kernel
/-- Tick 2142: the RELEASE leaves, and the offer deadline is 2158. -/
theorem test_leavingTheLink :
    let s := (paced .active 2142#32 (.offered (ticketOf 1) false none) []).setPort 1
      { openPort [] with outbound :=
          [⟨false, .release ⟨1#4, 0⟩ 0x02#8 0x00A0#16 0x0C#8 0x000311#24⟩] }
    ((after (.leavingTheLink 1) s).record 0).body = .offered (ticketOf 1) false (some 2158#32) := by
  decide +kernel
/-- Tick 2150: the ACK completes the ticket, whose record joins the end of the free order. -/
theorem test_ack :
    let s := paced .active 2150#32 (.offered (ticketOf 0) false (some 2158#32)) [.ack 0x0100#16]
    (after (.ack 0) s).record 0 = ⟨1#4, .free⟩ ∧ (after (.ack 0) s).rlu.freeOrder.getLast? = some 0 ∧
      ((after (.ack 0) s).port 0).outbound = [] := by decide +kernel
/-- 11.4: CANCEL before the due expiry is CANCELLED, after it TOO_LATE. -/
theorem test_cancel :
    ((after (.cancel 0) (paced .active 2139#32 (.pending (ticketOf 0)) [.cancel 0x0100#16])).port 0).outbound
      = [⟨false, .cancelled 0x0100#16⟩] ∧
    ((after (.cancel 0) (paced .active 2140#32 (.offered (ticketOf 0) false none)
      [.cancel 0x0100#16])).port 0).outbound = [⟨false, .tooLate 0x0100#16⟩] := by decide +kernel
/-- The offer deadline passes: OFFER_TIMEOUT is raised (R66). -/
theorem test_offerTimeout :
    let s := paced .active 2158#32 (.offered (ticketOf 0) false (some 2158#32)) []
    ((after (.offerTimeout 0) s).record 0).body = .free ∧ (after (.offerTimeout 0) s).evu.flags = 64#11 := by
  decide +kernel
/-- 11.7, tick 6000: A lacks ESSENTIAL, so its ticket is withdrawn with reason FALLBACK. -/
theorem test_supervisionExpiry :
    let s : State := { paced .active 6000#32 (.pending (ticketOf 0)) [] with
      ctu := { (device .active 6000#32).ctu with timer := some 6000#32, window := 1000#16 } }
    ((after .supervisionExpiry s).port 0).outbound = [⟨false, .withdrawn ⟨1#4, 0⟩ 0x02#8 .fallback⟩] ∧
      (after .supervisionExpiry s).ctu.device = .fallback ∧ alertLow (after .supervisionExpiry s) = true := by
  decide +kernel
/-- STOP withdraws it with reason STOPPED (R69). -/
theorem test_stop :
    ((after (.stop (frame .stop 1#8 [])) (paced .active 2120#32 (.pending (ticketOf 0)) [])).port 0).outbound
      = [⟨false, .withdrawn ⟨1#4, 0⟩ 0x02#8 .stopped⟩] := by decide +kernel
theorem test_ping :
    ((after (.ping 0) (gateway .active 0#32 [.ping 0x7E#8])).port 0).outbound
      = [⟨false, .pong 0x7E#8 .active 0#16 96⟩] := by decide +kernel
/-- A window-open tick that is reached opens the window (R12). -/
theorem test_windowOpens :
    ((after (.windowOpens 0) (withEntry (entry actionA .shut none) (device .active 2140#32))).slot 0).body
      = .live (entry actionA .opened none) := by decide +kernel
/-- A fifth message is discarded with the overrun mark set (R127). -/
theorem test_frameArrival :
    ((after (.frameArrival 0 ⟨InMsg.content (.ping 5#8), false⟩)
      (gateway .active 0#32 [.ping 1#8, .ping 2#8, .ping 3#8, .ping 4#8])).port 0).overrun = true ∧
    ((after (.frameArrival 0 ⟨InMsg.content (.ping 5#8), false⟩) (gateway .active 0#32 [])).port 0).inbound
      = [.ping 5#8] := by decide +kernel
theorem test_badEscape :
    ((after (.badEscape 2 0x00#8) (gateway .active 0#32 [])).port 2).receiver = .hunt ∧
      (after (.badEscape 2 0x00#8) (gateway .active 0#32 [])).evu.linkErrorPorts = 4#8 := by decide +kernel

/-! ### Retirement and inspection (11.5, 11.6) -/

/-- A QUIET entry that expires frees its slot under the next era; another is RETIRED (R81). -/
theorem test_deadlineExpiry :
    let s (quiet : Bool) := withEntry { entry { actionA with flags := ⟨false, false, false, quiet⟩ }
      .opened none with deadline := some 500#32 } (device .active 500#32)
    (after (.deadlineExpiry 0) (s true)).slot 0 = ⟨1#6, .free⟩ ∧
      ((after (.deadlineExpiry 0) (s false)).slot 0).body.isRetired = true := by decide +kernel
/-- 11.6, tick 4000: a SINGLE entry is spent by its ROUTE. -/
theorem test_lookup_single :
    let a : Action := { actionA with paceInterval := 0#16, flags := ⟨true, false, false, false⟩ }
    let s := withEntry (entry a .opened none) (gateway .active 4000#32 [lookup 0x05#8])
    ((after .lookupEvent s).slot 0).body.causeCode = 3#8 ∧
      ((after .lookupEvent s).slot 0).body.isRetired = true ∧
      (after .lookupEvent s).evu.flags = 16#11 := by decide +kernel
/-- The 10 bytes of the part (R152). -/
theorem test_identify :
    (after (.identify (frame .identify 1#8 [])) (device .standby 0#32)).hpt.response
      = ⟨1#8, .ok, [0x0F#8, 0x3A#8, 0x85#8, 0x20#8, 0x01#8, 0x02#8, 0x00#8, 0x60#8, 0x08#8, 0x10#8]⟩ := by
  decide +kernel
/-- An empty table: 512 FREE slots, 96 FREE tickets (R153). -/
theorem test_tableSummary :
    (after (.tableSummary (frame .tableSummary 1#8 [])) (device .standby 7#32)).hpt.response.data
      = [2#8, 0#8, 0#8, 0#8, 0#8, 0#8, 0#8, 0#8, 0#8, 0#8, 0#8, 0#8, 0#8, 0#8, 0#8, 0#8, 96#8,
          0#8, 0#8, 0#8, 7#8] := by decide +kernel
/-- A PENDING ticket as READ_TICKET gives it (R159). -/
theorem test_readTicket :
    (after (.readTicket (frame .readTicket 1#8 [0#8])) (paced .active 2120#32 (.pending (ticketOf 1))
      [])).hpt.response.data
      = [1#8, 0x01#8, 0x00#8, 0x00#8, 0x00#8, 1#8, 0x02#8, 0x00#8, 0x03#8, 0x11#8, 0#8, 0#8, 0x08#8,
          0x5C#8, 0#8, 0#8, 0#8, 0#8, 0#8] := by decide +kernel
/-- COLLECT of a LIVE entry is NOT_FOUND (R86). -/
theorem test_collect_live :
    (after (.collect (frame .collect 1#8 [0#8, 0#8])) (withEntry (entry actionA .opened none)
      (device .standby 0#32))).hpt.response.result = .notFound := by decide +kernel
/-- The NOP of step 2 of 11.1: NOT_READY is shifted out first, then the NOP's OK is held. -/
theorem test_spiTransactionOpen :
    (after .spiTransactionOpen State.reset).hpt.miso.take 5 = [0x02#8, 0x00#8, 0x00#8, 0x10#8, 0x00#8] ∧
      (after (.nop ⟨0x01#8, [], 0x6B#8⟩) (after .spiTransactionOpen State.reset)).hpt.response
        = ⟨0x01#8, .ok, []⟩ := by decide +kernel
/-- The status word 0x0200 of INIT leaves with its bit 9 as bit 6, and MISO floats after CS# rises (R141). -/
theorem test_misoPin :
    (List.range 8).map (misoPin (after .spiTransactionOpen State.reset))
      = [false, false, false, false, false, false, true, false].map some ∧
      misoPin (after (.nop ⟨0x01#8, [], 0x6B#8⟩) (after .spiTransactionOpen State.reset)) 6 = none := by
  decide +kernel
/-- A bad check byte and a broken frame raise HOST_FRAME_ERROR (R145). -/
theorem test_host_errors :
    (after (.nop ⟨0x01#8, [], 0x00#8⟩) State.reset).hpt.response.result = .badCheck ∧
      (after (.frameError []) State.reset).hpt.response = ⟨0x00#8, .frameError, []⟩ ∧
      (after (.frameError []) State.reset).evu.flags = 1024#11 := by decide +kernel

/-! ### The other commands -/

theorem test_huntDelimiter :
    ((after (.huntDelimiter 0) ((gateway .active 0#32 []).setPort 0
      { openPort [] with receiver := .hunt })).port 0).receiver = .frame := by decide +kernel
theorem test_badCommand :
    (after (.badCommand 0x36#8 ⟨1#8, [], crc8 [1#8, 0x36#8, 0#8]⟩) (device .standby 0#32)).hpt.response
      = ⟨1#8, .badCommand, []⟩ := by decide +kernel
/-- A KEEPALIVE in FALLBACK is OK and leaves the timer stopped (R174). -/
theorem test_keepalive :
    (after (.keepalive (frame .keepalive 1#8 [])) (device .fallback 6010#32)).hpt.response.result = .ok ∧
      (after (.keepalive (frame .keepalive 1#8 [])) (device .fallback 6010#32)).ctu.timer = none := by
  decide +kernel
/-- 11.7, tick 6040: RESUME, expiry tick 7040. -/
theorem test_resume :
    let s : State := { device .fallback 6040#32 with
      ctu := { (device .fallback 6040#32).ctu with window := 1000#16 } }
    (after (.resume (frame .resume 1#8 [])) s).ctu.timer = some 7040#32 := by decide +kernel
theorem test_setOfferLimit :
    (after (.setOfferLimit (frame .setOfferLimit 1#8 [0#8])) (device .active 0#32)).hpt.response.result
      = .badParam ∧
    (after (.setOfferLimit (frame .setOfferLimit 1#8 [255#8])) (device .active 0#32)).ctu.offerLimit
      = 255#8 := by decide +kernel
/-- A pending ENTRY_EXPIRED given the level NOTE drives NOTE# low at once (R182). -/
theorem test_setEventLevels :
    let s := raise .entryExpired (device .standby 0#32)
    noteLow s = false ∧
      noteLow (after (.setEventLevels (frame .setEventLevels 1#8 [0x00#8, 0x08#8, 1#8])) s) = true := by
  decide +kernel
/-- COMMIT_FAILED pending with the defaults of R179, after a pin reset (R183). -/
theorem test_readEvents :
    let s := raise .commitFailed { device .standby 0#32 with
      ctu := { (device .standby 0#32).ctu with cause := .pin } }
    (after (.readEvents (frame .readEvents 1#8 [])) s).hpt.response.data
      = [0#8, 4#8, 0#8, 0#8, 1#8, 1#8, 1#8, 2#8, 0#8, 0#8, 1#8, 1#8, 2#8, 2#8, 2#8, 1#8] := by decide +kernel
/-- CLEAR_EVENTS reports what it clears (R184). -/
theorem test_clearEvents :
    let s := raiseOverrun 3 (device .standby 0#32)
    (after (.clearEvents (frame .clearEvents 1#8 [0x07#8, 0xFF#8])) s).hpt.response.data
      = [0x00#8, 0x80#8, 0x08#8, 0x00#8] ∧
    (after (.clearEvents (frame .clearEvents 1#8 [0x07#8, 0xFF#8])) s).evu.overrunPorts = 0#8 := by
  decide +kernel
/-- Step 10 of 11.1: a PORT_UP carrying STANDBY. -/
theorem test_portOpen :
    ((after (.portOpen (frame .portOpen 1#8 [3#8, 4#8])) (device .standby 50#32)).port 3).outbound
      = [⟨false, .portUp .standby 0#16⟩] := by decide +kernel
/-- PORT_CLOSE frees the ticket of the port without a notice (R71). -/
theorem test_portClose :
    let s := paced .active 2120#32 (.pending (ticketOf 1)) []
    ((after (.portClose (frame .portClose 1#8 [1#8])) s).port 1).state = .closed ∧
      ((after (.portClose (frame .portClose 1#8 [1#8])) s).record 0).body = .free := by decide +kernel
/-- One ticket owned: load 1 under quota 4 (R160). -/
theorem test_readPort :
    (after (.readPort (frame .readPort 1#8 [1#8])) (paced .active 2120#32 (.pending (ticketOf 1))
      [])).hpt.response.data = [1#8, 4#8, 0#8, 0#8, 0#8, 1#8, 1#8, 0#8] := by decide +kernel
theorem test_begin :
    (after (.begin (frame .begin 1#8 [])) (device .standby 0#32)).edu.txn = .opened ∧
      (after (.begin (frame .begin 1#8 [])) (editing .opened [] (device .standby 0#32))).hpt.response.result
        = .alreadyOpen := by decide +kernel
theorem test_stageInsert :
    (after (.stageInsert (frame .stageInsert 1#8 imageA)) (editing .opened [.renew 0#16]
      (device .standby 0#32))).hpt.response = ⟨1#8, .ok, [1#8]⟩ := by decide +kernel
/-- The seventeenth op is refused (R97). -/
theorem test_stageRemove :
    (after (.stageRemove (frame .stageRemove 1#8 [0#8, 3#8])) (editing .opened
      (List.replicate 16 (.renew 0#16)) (device .standby 0#32))).hpt.response.result = .stageFull := by
  decide +kernel
theorem test_stageAmend :
    (after (.stageAmend (frame .stageAmend 1#8 ([0x02#8, 0x03#8] ++ (imageA.drop 10).take 20)))
      (editing .opened [] (device .standby 0#32))).edu.ops
      = [.amend 0x0203#16 ((imageA.drop 10).take 20)] := by decide +kernel
theorem test_stageRenew :
    (after (.stageRenew (frame .stageRenew 1#8 [0#8, 0#8])) (device .standby 0#32)).hpt.response.result
      = .noTransaction := by decide +kernel
/-- An INSERT of criteria that an earlier op repeats is a DUPLICATE at op index 1 (R102). -/
theorem test_commit :
    (after (.commit (frame .commit 1#8 [])) (editing .opened [.insert imageA, .insert imageA]
      (device .standby 0#32))).hpt.response = ⟨1#8, .rejected, [1#8, 3#8, 0#8]⟩ ∧
    (after (.commit (frame .commit 1#8 [])) (editing .opened [.insert imageA, .insert imageB]
      (device .standby 0#32))).edu.txn = .building := by decide +kernel
theorem test_discard :
    (after (.discard (frame .discard 1#8 [])) (editing .opened [.renew 0#16] (device .standby 0#32))).edu
      = .reset := by decide +kernel
/-- 11.6, tick 4001: the cutover fails at op index 1 with TARGET_RETIRED, and INSERT E is not applied. -/
theorem test_cutover_fails :
    let s := editing .building [.insert imageA, .renew 0x0004#16] (device .active 4001#32)
    (after .cutover s).edu.txn = .opened ∧ (after .cutover s).edu.result.opIndex = 1 ∧
      (after .cutover s).edu.result.reason = .targetRetired ∧ freeCount (after .cutover s) = 512 := by
  decide +kernel
/-- DONE under generation 1 with one handle (R194). -/
theorem test_commitResult :
    (after (.commitResult (frame .commitResult 1#8 [])) (after .cutover (editing .building
      [.insert imageA] (device .standby 40#32)))).hpt.response.data
      = [2#8, 0#8, 0#8, 0#8, 0#8, 1#8, 1#8, 0#8, 0#8] := by decide +kernel
/-- A FREE slot reports its state and era (R154); the image of a LIVE one comes back as given (R190). -/
theorem test_readEntry :
    (after (.readEntry (frame .readEntry 1#8 [1#8, 0xFF#8])) (device .standby 0#32)).hpt.response.data
      = [0#8, 0#8] ∧
    ((after (.readEntry (frame .readEntry 1#8 [0#8, 0#8])) (withEntry (entry actionA .opened none)
      (device .standby 0#32))).hpt.response.data.drop 2).take 32 = imageA := by decide +kernel
/-- A lacks ESSENTIAL: in FALLBACK the walk marks it dormant (R156). -/
theorem test_walkFirst :
    ((after (.walkFirst (frame .walkFirst 1#8 [])) (withEntry (entry actionA .opened none)
      (device .fallback 0#32))).hpt.response.data.take 3) = [0#8, 0#8, 1#8] := by decide +kernel
theorem test_walkNext :
    (after (.walkNext (frame .walkNext 1#8 [])) (device .standby 0#32)).hpt.response.result = .wrongState := by
  decide +kernel
/-- 11.6: LIST_RETIRED reports 0x0004, SPENT, count 1. -/
theorem test_listRetired :
    (after (.listRetired (frame .listRetired 1#8 [0#8, 0#8])) ((device .standby 0#32).setSlot 4
      ⟨0#6, .retired { (entry actionA .opened none).entry with matchCount := 1#16 } .spent⟩)).hpt.response.data
      = [1#8, 0x00#8, 0x04#8, 3#8, 0x00#8, 0x01#8] := by decide +kernel
/-- PROBE of the lookup of 11.3 in STANDBY: ROUTE from A to segments 2 and 3 (R161). -/
theorem test_probe :
    (after (.probe (frame .probe 1#8 [0#8, 0x00#8, 0x03#8, 0x11#8, 1#8, 0#8, 8#8])) (withEntry
      (entry actionA .opened none) (gateway .standby 0#32 []))).hpt.response.data
      = [1#8, 0x20#8, 0#8, 0#8, 0#8, 0x00#8, 0xA0#8, 0x0C#8, 0x00#8, 0x03#8, 0x11#8, 0xFF#8, 0xFF#8,
          0#8, 0#8, 0#8, 0#8, 0#8, 0#8] := by decide +kernel
/-- A warm restart opens A's window at now, frees its ticket and places a PORT_UP (R169). -/
theorem test_warmRestart :
    let t := after (.warmRestart (frame .warmRestart 1#8 [])) (paced .active 2120#32 (.pending (ticketOf 1)) [])
    ((t.slot 0).body.live?.map (fun l => (l.window, l.entry.windowOpen, l.ticket)))
      = some (.opened, 2120#32, none) ∧
    (t.port 1).outbound = [⟨false, .portUp .standby 0#16⟩] ∧ t.ctu.cause = .warm := by decide +kernel

/-! ### Witnesses: states and operands that meet the hypotheses of each statement together -/

/-- The frame of a command under sequence 1. -/
def f1 (c : HostCmd) (params : List Byte) : HostFrame := frame c 1#8 params

/-- Entry A, LIVE and SHUT with the deadline 500. -/
def lapsing (ticket : Option TicketId) : LiveEntry :=
  { entry actionA .shut ticket with deadline := some 500#32 }

/-- Slot 0 holds that entry. -/
def lapsingAt (now : Tick) (ticket : Option TicketId) : State :=
  withEntry (lapsing ticket) (gateway .active now [])

/-- A port with as many answers as the queue has room for (R129). -/
def fullPort (inbound : List InMsg) : Port :=
  { openPort inbound with outbound := List.replicate 8 ⟨false, .noMatch 0#8⟩ }

/-- An event answered by a next state is answered by the state after it. -/
theorem exec_after {c : Instr} {s : State}
    (h : (match exec c s with
      | .next _ => true
      | _ => false) = true) : exec c s = .next (after c s) := by
  unfold after
  split <;> simp_all

/-- A check of every slot with its number holds of each. -/
theorem all_slots {s : State} {P : SlotNo → Slot → Bool}
    (h : (numberedSlots s).all (fun x => P x.1 x.2) = true) (i : SlotNo) : P i (s.slot i) = true := by
  rw [numberedSlots_eq] at h
  simp only [List.all_map, List.all_eq_true, List.mem_finRange, true_implies, Function.comp] at h
  exact h i

theorem witness_StepTakesFrontCommand : State.reset.pending = [] := rfl

theorem witness_HardResetBeginsAndEnds :
    ((pins false false).ctu.resetLow = false ∧ (pins false false).ctu.powerHold = false ∧
      ({ (pins false false) with hpt := { HostPort.reset with phase := .selected } } : State).hpt.phase
        = .selected) ∧
    ((pins false true).ctu.resetLow = false ∧ (pins false true).ctu.powerHold = true) ∧
    ((pins true true).ctu.resetLow = true ∧ (pins true true).ctu.powerHold = true) ∧
    (pins true false).ctu.resetLow = true ∧ (pins true false).ctu.powerHold = false := by decide +kernel

theorem reset_ports (p : PortNo) : State.reset.port p = Port.reset := by revert p; decide
theorem reset_owned (p : PortNo) : ticketsOwned State.reset p = 0 := by revert p; decide +kernel

theorem witness_MemoryClearEntersStandby : State.reset.ctu.device = .init ∧ held State.reset = false ∧
    InitSound State.reset ∧ PortsSound State.reset := by
  refine ⟨rfl, rfl, ⟨fun _ => rfl, fun _ => rfl, fun _ => rfl, fun _ p => ?_, fun _ => rfl⟩,
    ⟨fun p => ?_, fun p _ => reset_owned p, fun p h => ?_⟩⟩
  · rw [reset_ports]; rfl
  · rw [reset_ports]; exact ⟨by decide, by decide, by decide, fun _ => ⟨rfl, rfl, rfl⟩⟩
  · rw [reset_ports] at h; cases h

/-- Reached at a distance of 0 and of 2^31, ahead at 1 and at 2^31 - 1. -/
theorem witness_TickAndWindowEvents :
    (lapsingAt 2140#32 none).ctu.device ≠ .init ∧ State.reset.ctu.device = .init ∧
    ((lapsingAt 2140#32 none).slot 0).body = .live (lapsing none) ∧ (lapsing none).window = .shut ∧
    (lapsing none).entry.windowOpen = (lapsingAt 2140#32 none).ctu.now ∧
    2 ^ 31 ≤ ((lapsing none).entry.windowOpen - (lapsingAt 0x8000085C#32 none).ctu.now).toNat ∧
    ((lapsing none).entry.windowOpen - (lapsingAt 2139#32 none).ctu.now).toNat = 1 ∧
    ((lapsing none).entry.windowOpen - (lapsingAt 0x8000085D#32 none).ctu.now).toNat = 2 ^ 31 - 1 := by
  decide +kernel

/-- No ticket, an OFFERED one and a PENDING one, with the deadline reached and ahead. -/
theorem witness_ExpiryRetiresEntry :
    (lapsingAt 500#32 none).ctu.device ≠ .init ∧
    ((lapsingAt 500#32 none).slot 0).body = .live (lapsing none) ∧
    (lapsing none).deadline = some 500#32 ∧ (lapsing none).ticket = none ∧
    500#32 - (lapsingAt 500#32 none).ctu.now = 0#32 ∧
    2 ^ 31 ≤ (500#32 - (lapsingAt 0x800001F4#32 none).ctu.now).toNat ∧
    (500#32 - (lapsingAt 499#32 none).ctu.now ≠ 0#32 ∧
      (500#32 - (lapsingAt 499#32 none).ctu.now).toNat < 2 ^ 31) ∧
    (let s := withTicket (.offered (ticketOf 0) false none) (lapsingAt 500#32 (some id0))
     s.ctu.device ≠ .init ∧ (s.slot 0).body = .live (lapsing (some id0)) ∧
      (lapsing (some id0)).ticket = some id0 ∧
      (s.record id0.number).body = .offered (ticketOf 0) false none) ∧
    (let s := withTicket (.pending (ticketOf 0)) (lapsingAt 500#32 (some id0))
     s.ctu.device ≠ .init ∧ (s.slot 0).body = .live (lapsing (some id0)) ∧
      (s.record id0.number).body = .pending (ticketOf 0) ∧ (ticketOf 0).handle.slot = 0) := by
  decide +kernel

/-- Segments 2 and 3 are OPEN and give a destination; segment 7 is CLOSED and gives none. -/
theorem witness_DueTicketIsOfferedOrWithdrawn :
    (let s := paced .active 2140#32 (.pending (ticketOf 1)) []
     s.ctu.device = .active ∧ s.rlu.releaseList = [0] ∧
      (s.record 0).body = .pending (ticketOf 1) ∧ (ticketOf 1).due - s.ctu.now = 0#32 ∧
      (s.slot (ticketOf 1).handle.slot).body.entry? = some (entry actionA .shut (some id0)).entry ∧
      (s.slot 0).body = .live (entry actionA .shut (some id0)) ∧
      destinations s (ticketOf 1).owner actionA ≠ 0#8) ∧
    (let a : Action := { actionA with destinations := 0x80#8 }
     let s := withTicket (.pending (ticketOf 1))
        ((gateway .fallback 0x8000085C#32 []).setSlot 0 ⟨0#6, .retiring (entry a .shut none).entry .spent id0⟩)
     s.ctu.device = .fallback ∧ s.rlu.releaseList = [0] ∧
      (s.record 0).body = .pending (ticketOf 1) ∧
      2 ^ 31 ≤ ((ticketOf 1).due - s.ctu.now).toNat ∧
      (s.slot (ticketOf 1).handle.slot).body.entry? = some (entry a .shut none).entry ∧
      (s.slot 0).body = .retiring (entry a .shut none).entry .spent id0 ∧
      destinations s (ticketOf 1).owner a = 0#8) := by decide +kernel

theorem witness_OfferTimeoutCompletesTicket :
    (let s := paced .active 2158#32 (.offered (ticketOf 0) true (some 2158#32)) []
     s.ctu.device ≠ .init ∧ (s.record 0).body = .offered (ticketOf 0) true (some 2158#32) ∧
      2158#32 - s.ctu.now = 0#32) ∧
    ((paced .active 2158#32 (.offered (ticketOf 0) false none) []).record 0).body
      = .offered (ticketOf 0) false none ∧
    (let s := paced .active 2157#32 (.offered (ticketOf 0) true (some 2158#32)) []
     (s.record 0).body = .offered (ticketOf 0) true (some 2158#32) ∧ 2158#32 - s.ctu.now ≠ 0#32 ∧
      (2158#32 - s.ctu.now).toNat < 2 ^ 31) := by decide +kernel

/-- The device with a RUNNING supervision timer. -/
def supervised (now : Tick) : State :=
  { paced .active now (.pending (ticketOf 0)) [] with
    ctu := { (device .active now).ctu with timer := some 6000#32, window := 1000#16 } }

theorem witness_SupervisionExpiryEntersFallback :
    ((supervised 6000#32).ctu.device = .active ∧ (supervised 6000#32).ctu.timer = some 6000#32 ∧
      6000#32 - (supervised 6000#32).ctu.now = 0#32 ∧ (supervised 6000#32).rlu.releaseList.Nodup ∧
      (supervised 6000#32).rlu.releaseList ≠ [] ∧
      ∀ r ∈ (supervised 6000#32).rlu.releaseList,
        ((supervised 6000#32).record r).body.isPending = true) ∧
    ((supervised 5999#32).ctu.timer = some 6000#32 ∧ 6000#32 - (supervised 5999#32).ctu.now ≠ 0#32 ∧
      (6000#32 - (supervised 5999#32).ctu.now).toNat < 2 ^ 31) := by decide +kernel

theorem witness_ArrivalQueuesOrOverruns :
    ((gateway .active 0#32 []).port 0).state = .opened ∧ ((gateway .active 0#32 []).port 0).receiver = .frame ∧
    ((gateway .active 0#32 (List.replicate 3 (.ping 1#8))).port 0).inbound.length < 4 ∧
    4 ≤ ((gateway .active 0#32 (List.replicate 4 (.ping 1#8))).port 0).inbound.length ∧
    ((gateway .active 0#32 (List.replicate 4 (.ping 1#8))).port 0).receiver = .frame := by decide +kernel

/-- One content for each arrival check that fails. -/
theorem witness_FailedArrivalRaisesLinkError :
    ((gateway .active 0#32 []).port 0).state = .opened ∧ ((gateway .active 0#32 []).port 0).receiver = .frame ∧
    ([0x13#8] : List Byte).length < 2 ∧ 9 < (List.replicate 10 0x10#8 : List Byte).length ∧
    crc8 [0x13#8, 0x00#8, 0x00#8] ≠ 0#8 ∧
    ([0x20#8, 0x00#8] : List Byte).head?
      ∉ [some 0x10#8, some 0x11#8, some 0x12#8, some 0x13#8] ∧
    (([0x10#8, 0x00#8] : List Byte).head? = some 0x10#8 ∧ ([0x10#8, 0x00#8] : List Byte).length ≠ 9) ∧
    (([0x11#8, 0x00#8] : List Byte).head? = some 0x11#8 ∧ ([0x11#8, 0x00#8] : List Byte).length ≠ 4) ∧
    (([0x12#8, 0x00#8] : List Byte).head? = some 0x12#8 ∧ ([0x12#8, 0x00#8] : List Byte).length ≠ 4) ∧
    (([0x13#8, 0x00#8] : List Byte).head? = some 0x13#8 ∧ ([0x13#8, 0x00#8] : List Byte).length ≠ 3) := by
  decide +kernel

theorem witness_ReceiverFollowsTheLine :
    ((gateway .active 0#32 []).port 0).state = .opened ∧ ((gateway .active 0#32 []).port 0).receiver = .frame ∧
    (0xF6#8 ≠ 0xF5#8 ∧ 0xF6#8 ≠ 0xF4#8 ∧ 0xF6#8 ≠ 0xB5#8) ∧
    (((gateway .active 0#32 []).setPort 0 { openPort [] with receiver := .hunt }).port 0).state = .opened ∧
    (((gateway .active 0#32 []).setPort 0 { openPort [] with receiver := .hunt }).port 0).receiver = .hunt ∧
    ((gateway .active 0#32 []).port 7).state = .closed := by decide +kernel

theorem witness_AckCompletesSentOffer :
    (let s := paced .active 2150#32 (.offered (ticketOf 0) false (some 2158#32)) [.ack 0x0100#16, .ping 1#8]
     (s.port 0).state = .opened ∧ (s.port 0).answers < 8 ∧
      (s.port 0).inbound = .ack 0x0100#16 :: [.ping 1#8] ∧ s.namedTicket 0x0100#16 = some 0 ∧
      (s.record 0).body = .offered (ticketOf 0) false (some 2158#32) ∧ (ticketOf 0).owner = 0) ∧
    8 ≤ (((gateway .active 0#32 []).setPort 0 (fullPort [.ack 0#16])).port 0).answers := by decide +kernel

theorem witness_CancelCompletesOrIsTooLate :
    (let s := paced .active 2150#32 (.pending (ticketOf 0)) [.cancel 0x0100#16]
     (s.port 0).state = .opened ∧ (s.port 0).answers < 8 ∧
      (s.port 0).inbound = .cancel 0x0100#16 :: [] ∧ s.namedTicket 0x0100#16 = some 0 ∧
      (s.record 0).body = .pending (ticketOf 0) ∧ (ticketOf 0).owner = 0) ∧
    (let s := paced .active 2150#32 (.offered (ticketOf 0) false none) [.cancel 0x0100#16]
     (s.port 0).inbound = .cancel 0x0100#16 :: [] ∧ s.namedTicket 0x0100#16 = some 0 ∧
      (s.record 0).body = .offered (ticketOf 0) false none) := by decide +kernel

/-- Record 96 does not exist, record 0 is QP1's, and record 0 of QP0 is unsent. -/
theorem witness_StrayAnswersByCause :
    (let s := paced .active 2150#32 (.pending (ticketOf 1)) [.ack 0x0160#16]
     (s.port 0).state = .opened ∧ (s.port 0).answers < 8 ∧ (s.port 0).inbound = .ack 0x0160#16 :: [] ∧
      s.namedTicket 0x0160#16 = none) ∧
    (let s := paced .active 2150#32 (.pending (ticketOf 1)) [.ack 0x0100#16]
     (s.port 0).inbound = .ack 0x0100#16 :: [] ∧ s.namedTicket 0x0100#16 = some 0 ∧
      (s.record 0).body.held? = some (ticketOf 1) ∧ (ticketOf 1).owner ≠ 0) ∧
    (let s := paced .active 2150#32 (.pending (ticketOf 0)) [.ack 0x0100#16]
     s.namedTicket 0x0100#16 = some 0 ∧ (ticketOf 0).owner = 0 ∧
      (s.record 0).body = .pending (ticketOf 0)) ∧
    (let s := paced .active 2150#32 (.offered (ticketOf 0) true none) [.ack 0x0100#16]
     s.namedTicket 0x0100#16 = some 0 ∧ (s.record 0).body = .offered (ticketOf 0) true none) ∧
    (let s := paced .active 2150#32 (.pending (ticketOf 1)) [.cancel 0x0200#16]
     (s.port 0).inbound = .cancel 0x0200#16 :: [] ∧ s.namedTicket 0x0200#16 = none) ∧
    (let s := paced .active 2150#32 (.pending (ticketOf 1)) [.cancel 0x0100#16]
     (s.port 0).inbound = .cancel 0x0100#16 :: [] ∧ s.namedTicket 0x0100#16 = some 0 ∧
      (s.record 0).body.held? = some (ticketOf 1)) := by decide +kernel

theorem witness_PingIsAnsweredByPong :
    let s := gateway .standby 0#32 [.ping 0x7E#8]
    (s.port 0).state = .opened ∧ (s.port 0).answers < 8 ∧ (s.port 0).inbound = .ping 0x7E#8 :: [] := by
  decide +kernel

theorem witness_LeavingMessageIsSent :
    (let b : OutBody := .release id0 0x02#8 0x00A0#16 0x0C#8 0x000311#24
     let s := (paced .active 2142#32 (.offered (ticketOf 1) false none) []).setPort 1
        { openPort [] with outbound := [⟨false, b⟩] }
     (s.port 1).state = .opened ∧ (s.port 1).outbound = ⟨false, b⟩ :: [] ∧
      s.record id0.number = ⟨id0.serial, .offered (ticketOf 1) false none⟩ ∧
      held s = false ∧ s.ctu.device ≠ .init ∧ (s.port 0).outbound = [] ∧ (s.port 7).state = .closed) ∧
    held (pins true false) = true ∧ State.reset.ctu.device = .init ∧
    (let s := (gateway .active 0#32 []).setPort 1 { openPort [] with outbound := [⟨true, .noMatch 1#8⟩] }
     (s.port 1).state = .opened ∧ (s.port 1).outbound = ⟨true, .noMatch 1#8⟩ :: [] ∧
      ∀ k tag label dest ident, OutBody.noMatch 1#8 ≠ .release k tag label dest ident) := by
  refine ⟨by decide +kernel, by decide +kernel, rfl, by decide +kernel, by decide +kernel,
    fun _ _ _ _ _ h => by cases h⟩

theorem witness_NamesAreCurrent :
    (paced .active 0#32 (.pending (ticketOf 0)) []).named 0#16 = some 0 ∧
    (paced .active 0#32 (.pending (ticketOf 0)) []).namedTicket 0x0100#16 = some 0 := by decide +kernel

theorem witness_ArbiterGrantsFirstFromPointer :
    granted (gateway .active 0#32 [lookup 1#8]) = some 0 ∧ ∀ p, eligible State.reset p = false := by
  decide +kernel

theorem witness_SearchFindsLeastKey :
    search (withEntry (entry actionA .opened none) (gateway .active 0#32 [])) query
      = some (0, entry actionA .opened none) ∧ search State.reset query = none := by decide +kernel

/-- Entry A in slot 0 with other action fields, asked at tick 2110. -/
def asked (l : LiveEntry) : State := withEntry l (gateway .active 2110#32 [lookup 0x02#8])

/-- The lookup of 11.3 is admitted by entry A with other action fields, at the border of its window. -/
def bordered : Action := { actionA with lengthMin := 8#16, lengthMax := 8#16 }

/-- The clauses of the decision before pacing: outside the window on either side, inside it, DISCARD,
no destination, and no pacing. -/
theorem witness_DecisionFollowsRules :
    (8#16).toNat < (9#16).toNat ∧ (7#16).toNat < (query.length).toNat ∧
    (bordered.lengthMin.toNat ≤ query.length.toNat ∧ query.length.toNat ≤ bordered.lengthMax.toNat) ∧
    destinations (asked (entry bordered .opened none)) query.source bordered = 0x0C#8 ∧
    destinations (asked (entry bordered .opened none)) query.source { bordered with destinations := 0x81#8 }
      = 0#8 ∧
    ({ bordered with disposition := .discard } : Action).disposition = .discard ∧
    ({ bordered with paceInterval := 0#16 } : Action).paceInterval = 0#16 ∧
    ((asked (entry bordered .opened none)).port query.source).state = .opened := by decide +kernel

/-- The clauses of pacing: DROP with either window, and DEFER with a PENDING, an OFFERED and no ticket. -/
theorem witness_DecisionFollowsRules_paced :
    ({ bordered with paceMode := .drop } : Action).paceMode = .drop ∧ bordered.paceInterval ≠ 0#16 ∧
    bordered.disposition = .forward ∧ bordered.paceMode = .defer ∧
    ((entry bordered .opened none).window = .opened ∧ (entry bordered .shut none).window = .shut) ∧
    (let s := withTicket (.pending (ticketOf 1)) (asked (entry bordered .shut (some id0)))
     (entry bordered .shut (some id0)).ticket = some id0 ∧
      (s.record id0.number).body.isPending = true ∧ destinations s query.source bordered ≠ 0#8 ∧
      hasQuota s query.source = true) ∧
    (let s := withTicket (.offered (ticketOf 1) false none) (asked (entry bordered .shut (some id0)))
     (s.record id0.number).body.isOffered = true ∧ destinations s query.source bordered ≠ 0#8) ∧
    (asked (entry bordered .shut none)).rlu.freeOrder = 0 :: (List.finRange 96).tail ∧
    ({ (asked (entry bordered .shut none)) with
      rlu := { ReleaseUnit.reset with freeOrder := [] } } : State).rlu.freeOrder = [] := by decide +kernel

theorem witness_LookupRefusedOrUnmatched :
    (let s := gateway .active 0#32 [.lookup 1#8 0#24 3#8 0#16]
     granted s = some 0 ∧ (s.port 0).inbound = .lookup 1#8 0#24 3#8 0#16 :: [] ∧ 3#8 ≠ 1#8 ∧ 3#8 ≠ 2#8) ∧
    (let s := gateway .standby 0#32 [.lookup 1#8 0#24 2#8 2048#16]
     granted s = some 0 ∧ (s.port 0).inbound = .lookup 1#8 0#24 2#8 2048#16 :: [] ∧
      2047 < (2048#16).toNat) ∧
    (let s := gateway .standby 0#32 [.lookup 1#8 0#24 2#8 2047#16]
     granted s = some 0 ∧ (s.port 0).inbound = .lookup 1#8 0#24 2#8 2047#16 :: [] ∧
      (2047#16).toNat ≤ 2047 ∧ s.ctu.device = .standby) ∧
    (let s := gateway .fallback 0#32 [.lookup 1#8 0#24 1#8 2047#16]
     granted s = some 0 ∧ (s.port 0).inbound = .lookup 1#8 0#24 1#8 2047#16 :: [] ∧
      s.ctu.device = .fallback ∧ search s ⟨0, 0#24, 1#8, 2047#16⟩ = none) := by decide +kernel

/-- Entry A with the length window passed over, and refused a ticket by an empty free order. -/
theorem witness_LookupDropKeepsEntry :
    (let l := entry { actionA with lengthMax := 7#16 } .shut none
     Evaluated (asked l) query 0x02#8 0 l ∧ decideEntry (asked l) query l = .drop .length 0#8 ∧
      DropReason.length ≠ .rule) ∧
    (let l := entry { actionA with disposition := .discard } .shut none
     Evaluated (asked l) query 0x02#8 0 l ∧ decideEntry (asked l) query l = .drop .rule 0#8 ∧
      l.entry.action.flags.single = false) ∧
    (let l := entry actionA .shut none
     let s := { asked l with rlu := { ReleaseUnit.reset with freeOrder := [] } }
     Evaluated s query 0x02#8 0 l ∧ decideEntry s query l = .drop .noTicket 0x0C#8) := by decide +kernel

theorem witness_LookupRoutes :
    (let l := entry actionA .opened none
     Evaluated (asked l) query 0x02#8 0 l ∧ decideEntry (asked l) query l = .route 0x0C#8 true ∧
      l.entry.action.flags.single = false) ∧
    (let l := entry { actionA with paceInterval := 0#16 } .opened none
     Evaluated (asked l) query 0x02#8 0 l ∧ decideEntry (asked l) query l = .route 0x0C#8 false ∧
      l.entry.action.flags.single = false) := by decide +kernel

/-- The flags of a SINGLE entry. -/
def singleFlags : EntryFlags := ⟨true, false, false, false⟩

theorem witness_LookupSpendsSingle :
    (let l := entry { actionA with disposition := .discard, flags := singleFlags } .shut none
     Evaluated (asked l) query 0x02#8 0 l ∧ l.entry.action.flags.single = true ∧
      decideEntry (asked l) query l = .drop .rule 0#8 ∧ l.ticket = none) ∧
    (let l := entry { actionA with flags := singleFlags } .opened (some id0)
     let s := withTicket (.offered (ticketOf 1) false none) (asked l)
     Evaluated s query 0x02#8 0 l ∧ l.entry.action.flags.single = true ∧
      decideEntry s query l = .route 0x0C#8 true ∧ l.ticket = some id0) := by decide +kernel

theorem witness_LookupDefersByCreation :
    (let l := entry actionA .shut none
     Evaluated (asked l) query 0x02#8 0 l ∧ decideEntry (asked l) query l = .create 0 0x0C#8) ∧
    (let l := entry { actionA with flags := singleFlags } .shut none
     Evaluated (asked l) query 0x02#8 0 l ∧ decideEntry (asked l) query l = .create 0 0x0C#8) := by
  decide +kernel

theorem witness_LookupDefersBySupersede :
    let l := entry actionA .shut (some id0)
    let s := withTicket (.pending (ticketOf 1)) (asked l)
    Evaluated s query 0x02#8 0 l ∧ decideEntry s query l = .supersede 0 0x0C#8 ∧
      (s.record 0).body = .pending (ticketOf 1) ∧ (ticketOf 1).handle.slot = 0 ∧
      l.entry.action.flags.single = false := by decide +kernel

/-- Due ticks 10, 10 and 20 from now 5, over the wrap at 2^32 - 1. -/
theorem witness_ReleaseListJoinsByDueTick :
    ([0, 1, 2] : List RecNo).Pairwise (fun a b =>
      signedAhead 5#32 (if a = 0 then 0xFFFFFFFF#32 else 10#32)
        ≤ signedAhead 5#32 (if b = 0 then 0xFFFFFFFF#32 else 10#32)) := by decide +kernel

theorem witness_ProbeForetellsLookup :
    let s := asked (entry actionA .shut none)
    s.ctu.device = .active ∧ granted s = some 0 ∧ (s.port 0).inbound = lookup 0x02#8 :: [] ∧
      exec .lookupEvent s = .next (after .lookupEvent s) :=
  ⟨by decide +kernel, by decide +kernel, by decide +kernel, exec_after (by decide +kernel)⟩

theorem witness_SpiOpenShiftsStatusAndResponse :
    (List.replicate 7 true).length < 8 ∧ State.reset.hpt.phase = .idle ∧ held State.reset = false ∧
    (pins true false).hpt.phase = .idle ∧ held (pins true false) = true := by decide +kernel

/-- A frame of 61 parameter bytes, a bad check byte, INIT, a wrong length, an unknown code, and a
transaction that is not taken. -/
theorem witness_HostFrameTestsInOrder :
    spiUnseen (device .standby 0#32) = false ∧ frameComplete [0x01#8, 0x00#8] = false ∧
    60 < (f1 .nop (List.replicate 61 0#8)).params.length ∧
    ((f1 .nop (List.replicate 60 0#8)).params.length ≤ 60 ∧
      frameChecks (hostCode .nop) (f1 .nop (List.replicate 60 0#8)) = true ∧
      (f1 .nop (List.replicate 60 0#8)).params.length ≠ paramLength .nop) ∧
    frameChecks (hostCode .nop) ⟨0#8, [], 1#8⟩ = false ∧
    (State.reset.ctu.device = .init ∧ spiUnseen State.reset = false ∧ HostCmd.start ≠ .nop ∧
      frameChecks (hostCode .start) (f1 .start []) = true) ∧
    (device .standby 0#32).ctu.device ≠ .init ∧ hostCmdOf 0x36#8 = none ∧
    frameChecks 0x36#8 ⟨1#8, [], crc8 [1#8, 0x36#8, 0#8]⟩ = true ∧ frameChecks 0x36#8 ⟨0#8, [], 1#8⟩ = false ∧
    spiUnseen (pins true false) = true := by decide +kernel

theorem witness_NopAnswersOk : spiUnseen State.reset = false ∧ (f1 .nop []).params = [] ∧
    frameChecks 0x00#8 (f1 .nop []) = true := by decide +kernel

theorem witness_IdentifyReportsPart : spiUnseen (device .active 0#32) = false ∧ (f1 .identify []).params = [] ∧
    frameChecks 0x01#8 (f1 .identify []) = true ∧ (device .active 0#32).ctu.device ≠ .init ∧
    spiUnseen State.reset = false ∧ State.reset.ctu.device = .init := by decide +kernel

theorem witness_TableSummaryCounts :
    Taken .tableSummary (f1 .tableSummary []) (device .standby 0#32) := by decide +kernel

/-- Slot 511 and slot 512, record 95 and record 96, port 7 and port 8, and a FREE and a LIVE slot. -/
theorem witness_ReadsReportOneItem :
    (let s := withEntry (entry actionA .opened none) (device .standby 0#32)
     Taken .readEntry (f1 .readEntry [2#8, 0#8]) s ∧
      511 < (halfAt (f1 .readEntry [2#8, 0#8]).params 0).toNat ∧
      Taken .readEntry (f1 .readEntry [1#8, 0xFF#8]) s ∧
      (halfAt (f1 .readEntry [1#8, 0xFF#8]).params 0).toNat = (511 : SlotNo).val ∧
      (s.slot 511).body = .free ∧ Taken .readEntry (f1 .readEntry [0#8, 0#8]) s ∧
      (halfAt (f1 .readEntry [0#8, 0#8]).params 0).toNat = (0 : SlotNo).val ∧
      (s.slot 0).body.entry? = some (entry actionA .opened none).entry) ∧
    (Taken .readTicket (f1 .readTicket [96#8]) (device .standby 0#32) ∧ 95 < (96#8).toNat ∧
      Taken .readTicket (f1 .readTicket [95#8]) (device .standby 0#32) ∧
      (95#8).toNat = (95 : RecNo).val) ∧
    (Taken .readPort (f1 .readPort [8#8]) (device .standby 0#32) ∧ 7 < (8#8).toNat ∧
      Taken .readPort (f1 .readPort [7#8]) (device .standby 0#32) ∧ (7#8).toNat = (7 : PortNo).val) ∧
    (Taken .probe (f1 .probe [8#8, 0#8, 0#8, 0#8, 1#8, 0#8, 8#8]) (device .standby 0#32) ∧
      Taken .probe (f1 .probe [7#8, 0#8, 0#8, 0#8, 1#8, 0#8, 8#8]) (device .standby 0#32) ∧
      (device .standby 0#32).ctu.device = .standby) := by decide +kernel

/-- READ_TICKET of a FREE, a PENDING and an OFFERED record. -/
theorem witness_ReadsReportOneItem_tickets :
    let s (b : TicketBody) := paced .active 2120#32 b []
    Taken .readTicket (f1 .readTicket [0#8]) (s (.pending (ticketOf 1))) ∧
    (byteAt (f1 .readTicket [0#8]).params 0).toNat = (0 : RecNo).val ∧
    ((s .free).record 0).body = .free ∧
    ((s (.pending (ticketOf 1))).record 0).body = .pending (ticketOf 1) ∧
    ((s (.offered (ticketOf 1) true (some 2158#32))).record 0).body
      = .offered (ticketOf 1) true (some 2158#32) := by decide +kernel

/-- The parameters of a PROBE of the lookup of 11.3, and the query they spell. -/
def probed (kind : Byte) : HostFrame := f1 .probe [0#8, 0x00#8, 0x03#8, 0x11#8, kind, 0#8, 8#8]

/-- A PROBE of a kind that is no lookup's, of no entry, and of entry A with each decision. -/
theorem witness_ReadsReportOneItem_probe :
    (Taken .probe (probed 3#8) (device .standby 0#32) ∧
      (byteAt (probed 3#8).params 0).toNat = (0 : PortNo).val ∧
      byteAt (probed 3#8).params 4 ≠ 1#8 ∧ byteAt (probed 3#8).params 4 ≠ 2#8) ∧
    ((⟨0, identAt (probed 1#8).params 1, byteAt (probed 1#8).params 4, halfAt (probed 1#8).params 5⟩ : Query)
        = query ∧
      Taken .probe (probed 1#8) (device .standby 0#32) ∧ query.kind = 1#8 ∧ query.length.toNat ≤ 2047 ∧
      search (device .standby 0#32) query = none) ∧
    (let l := entry { actionA with lengthMax := 7#16 } .shut none
     search (asked l) query = some (0, l) ∧ decideEntry (asked l) query l = .drop .length 0#8) ∧
    (let l := entry actionA .opened none
     search (asked l) query = some (0, l) ∧ decideEntry (asked l) query l = .route 0x0C#8 true) ∧
    (let l := entry actionA .shut none
     search (asked l) query = some (0, l) ∧ decideEntry (asked l) query l = .create 0 0x0C#8) ∧
    (let l := entry actionA .shut (some id0)
     let s := withTicket (.pending (ticketOf 1)) (asked l)
     Taken .probe (probed 1#8) s ∧ search s query = some (0, l) ∧
      decideEntry s query l = .supersede 0 0x0C#8 ∧ (s.record 0).body = .pending (ticketOf 1)) := by
  decide +kernel

/-- Entry A alone is next from the start and above a lower key, and nothing is above its own key. -/
theorem witness_WalkReturnsNextKey :
    (let s := withEntry (entry actionA .opened none) (device .standby 0#32)
     let after (k : Option OrderKey) : State := { s with hpt := { s.hpt with cursor := k } }
     Taken .walkFirst (f1 .walkFirst []) s ∧ NextInWalk s (fun _ => True) 0 (entry actionA .opened none) ∧
      Taken .walkNext (f1 .walkNext []) (after (some ⟨100#16, 0#32⟩)) ∧
      KeyBefore ⟨99#16, 5#32⟩ (entry actionA .opened none).entry.key ∧
      (∀ j m, (s.slot j).body = .live m → ¬ KeyBefore ⟨100#16, 0#32⟩ m.entry.key)) ∧
    ((∀ j, ((device .standby 0#32).slot j).body.isLive = false) ∧
      (device .standby 0#32).hpt.cursor = none ∧
      Taken .walkNext (f1 .walkNext []) (device .standby 0#32)) := by
  have only : ∀ j, j ≠ 0 → ((withEntry (entry actionA .opened none) (device .standby 0#32)).slot j).body.isLive
      = false := fun j ne => by
    simpa [ne] using all_slots (P := fun j sl => decide (j = 0) || !sl.body.isLive) (by decide +kernel) j
  refine ⟨⟨by decide +kernel, ⟨by decide +kernel, trivial, fun j m h _ ne => ?_⟩, by decide +kernel,
    by decide +kernel, fun j m h => ?_⟩, fun j => ?_, by decide +kernel, by decide +kernel⟩
  · have := only j ne
    rw [h] at this
    cases this
  · by_cases ne : j = 0
    · subst ne
      have first : ((withEntry (entry actionA .opened none) (device .standby 0#32)).slot 0).body
        = .live (entry actionA .opened none) := by decide +kernel
      rw [first] at h
      cases h
      decide +kernel
    · have := only j ne
      rw [h] at this
      cases this
  · simpa using all_slots (P := fun _ sl => !sl.body.isLive) (by decide +kernel) j

/-- A RETIRED entry in slot 4. -/
def spentEntry : State :=
  (device .standby 0#32).setSlot 4 ⟨0#6, .retired (entry actionA .opened none).entry .spent⟩

theorem witness_RetiredAreListedAndCollected :
    (Taken .listRetired (f1 .listRetired [2#8, 0#8]) spentEntry ∧
      511 < (halfAt (f1 .listRetired [2#8, 0#8]).params 0).toNat) ∧
    (Taken .listRetired (f1 .listRetired [0#8, 5#8]) spentEntry ∧
      (halfAt (f1 .listRetired [0#8, 5#8]).params 0).toNat = (5 : SlotNo).val ∧
      ∀ i : SlotNo, 5 ≤ i → (spentEntry.slot i).body.isRetired = false) ∧
    (Taken .listRetired (f1 .listRetired [0#8, 4#8]) spentEntry ∧
      (halfAt (f1 .listRetired [0#8, 4#8]).params 0).toNat = (4 : SlotNo).val ∧
      (spentEntry.slot 4).body = .retired (entry actionA .opened none).entry .spent ∧
      (spentEntry.slot 4).body.isRetired = true) ∧
    (Taken .collect (f1 .collect [0#8, 4#8]) spentEntry ∧
      spentEntry.named (halfAt (f1 .collect [0#8, 4#8]).params 0) = some 4) ∧
    (Taken .collect (f1 .collect [0#8, 5#8]) spentEntry ∧
      spentEntry.named (halfAt (f1 .collect [0#8, 5#8]).params 0) = none) := by
  refine ⟨by decide +kernel, ⟨by decide +kernel, by decide +kernel, fun i h => ?_⟩, by decide +kernel⟩
  have := all_slots (s := spentEntry) (P := fun j sl => decide (j = 4) || !sl.body.isRetired)
    (by decide +kernel) i
  have ne : i ≠ 4 := by rintro rfl; exact absurd h (by decide)
  simpa [ne] using this

theorem witness_ControlCommands :
    Taken .start (f1 .start []) (device .standby 0#32) ∧ Taken .resume (f1 .resume []) (device .fallback 0#32) ∧
    Taken .keepalive (f1 .keepalive []) (supervised 5000#32) ∧
    ((supervised 5000#32).ctu.device = .active ∧ (supervised 5000#32).ctu.window ≠ 0#16) ∧
    Taken .setTimebase (f1 .setTimebase [0x03#8, 0xE8#8]) (device .standby 0#32) ∧
    (halfAt (f1 .setTimebase [0x03#8, 0xE8#8]).params 0).toNat = 1000 ∧
    Taken .setSupervision (f1 .setSupervision [0#8, 0#8]) (supervised 5000#32) ∧
    Taken .setOfferLimit (f1 .setOfferLimit [0#8]) (device .active 0#32) ∧
    Taken .setOfferLimit (f1 .setOfferLimit [255#8]) (device .active 0#32) := by decide +kernel

theorem witness_StopWithdrawsEveryPendingTicket :
    Taken .stop (f1 .stop []) (supervised 5000#32) ∧ (supervised 5000#32).ctu.device = .active ∧
    (supervised 5000#32).rlu.releaseList = [0] ∧ [(0 : RecNo)].Nodup ∧
    ((supervised 5000#32).record 0).body.isPending = true ∧
    Taken .stop (f1 .stop []) (device .standby 0#32) ∧ (device .standby 0#32).ctu.device = .standby := by
  decide +kernel

/-- A LIVE and a RETIRING entry, an OPEN port without and with a message to flush, and a CLOSED port. -/
theorem witness_WarmRestartKeepsTable :
    let s := ((paced .active 2120#32 (.pending (ticketOf 1)) []).setPort 1 (fullPort [])).setSlot 1
      ⟨0#6, .retiring (entry actionA .shut none).entry .spent id0⟩
    Taken .warmRestart (f1 .warmRestart []) s ∧ (s.slot 0).body = .live (entry actionA .shut (some id0)) ∧
      (s.slot 1).body = .retiring (entry actionA .shut none).entry .spent id0 ∧
      (s.slot 2).body.isFree = true ∧ (s.port 0).state = .opened ∧ (s.port 0).outbound.isEmpty = true ∧
      (s.port 1).state = .opened ∧ (s.port 1).outbound.isEmpty = false ∧ (s.port 7).state = .closed := by
  decide +kernel

/-- The sets 0x0800 and 0x07FF, and the levels 3 and ALERT. -/
theorem witness_EventCommands :
    (Taken .setEventLevels (f1 .setEventLevels [0x08#8, 0#8, 2#8]) (device .standby 0#32) ∧
      2048 ≤ (halfAt (f1 .setEventLevels [0x08#8, 0#8, 2#8]).params 0).toNat) ∧
    (Taken .setEventLevels (f1 .setEventLevels [0x07#8, 0xFF#8, 3#8]) (device .standby 0#32) ∧
      2 < (byteAt (f1 .setEventLevels [0x07#8, 0xFF#8, 3#8]).params 2).toNat) ∧
    (Taken .setEventLevels (f1 .setEventLevels [0x07#8, 0xFF#8, 2#8]) (device .standby 0#32) ∧
      (halfAt (f1 .setEventLevels [0x07#8, 0xFF#8, 2#8]).params 0).toNat < 2048 ∧
      byteAt (f1 .setEventLevels [0x07#8, 0xFF#8, 2#8]).params 2 = EventLevel.alert.code) ∧
    (Taken .clearEvents (f1 .clearEvents [0x08#8, 0#8]) (device .standby 0#32) ∧
      2048 ≤ (halfAt (f1 .clearEvents [0x08#8, 0#8]).params 0).toNat) ∧
    (Taken .clearEvents (f1 .clearEvents [0x07#8, 0xFF#8]) (device .standby 0#32) ∧
      (halfAt (f1 .clearEvents [0x07#8, 0xFF#8]).params 0).toNat < 2048) := by decide +kernel

theorem witness_ReadEventsReports :
    Taken .readEvents (f1 .readEvents []) (raise .commitFailed (device .standby 0#32)) := by decide +kernel

/-- Port 8, quota 97, quota 96 on a CLOSED and on an OPEN port, and both states for PORT_CLOSE. -/
theorem witness_PortCommands :
    (let s := (gateway .active 0#32 []).setPort 1 (fullPort [])
     (Taken .portOpen (f1 .portOpen [8#8, 4#8]) s ∧ 7 < (8#8).toNat) ∧
      (Taken .portOpen (f1 .portOpen [7#8, 97#8]) s ∧ 96 < (97#8).toNat) ∧
      (Taken .portOpen (f1 .portOpen [7#8, 96#8]) s ∧ (7#8).toNat = (7 : PortNo).val ∧
        (96#8).toNat ≤ 96 ∧ (s.port 7).state = .closed) ∧
      (Taken .portOpen (f1 .portOpen [0#8, 96#8]) s ∧ (0#8).toNat = (0 : PortNo).val ∧
        (s.port 0).state = .opened) ∧
      Taken .portClose (f1 .portClose [8#8]) s ∧ Taken .portClose (f1 .portClose [0#8]) s ∧
      Taken .portClose (f1 .portClose [7#8]) s ∧ Taken .portClose (f1 .portClose [1#8]) s ∧
      (s.port 1).state = .opened ∧ (s.port 1).outbound ≠ []) := by decide +kernel

theorem witness_TransactionCommands :
    let s := editing .opened [] (device .standby 0#32)
    Taken .begin (f1 .begin []) s ∧ Taken .discard (f1 .discard []) s ∧
    Taken .stageInsert (f1 .stageInsert imageA) s ∧ Taken .stageRemove (f1 .stageRemove [0#8, 0#8]) s ∧
    Taken .stageAmend (f1 .stageAmend ([0#8, 0#8] ++ (imageA.drop 10).take 20)) s ∧
    Taken .stageRenew (f1 .stageRenew [0#8, 0#8]) s ∧ Taken .commitResult (f1 .commitResult []) s := by
  decide +kernel

/-- No field of A's image fails. -/
theorem imageA_fields (k : Nat) : ¬ DefinitionFieldFails imageA k := by
  intro h
  unfold DefinitionFieldFails ActionFieldFails at h
  split at h <;> try exact absurd h (by decide +kernel)
  split at h <;> exact absurd h (by decide +kernel)

/-- Op list under COMMIT over an empty table. -/
abbrev committing (ops : List Op) : State := editing .opened ops (device .standby 0#32)

/-- An INSERT of A that comes first over an empty table passes its tests. -/
theorem insertA_passes (rest : List Op) (reason : CommitReason) (field : Nat) :
    ¬ OpRejected (committing (.insert imageA :: rest)) 0 reason field := by
  rintro ⟨op, h, failure, _⟩
  obtain rfl : Op.insert imageA = op := by simpa [editing] using h
  rcases failure with ⟨⟨k, fails⟩, _⟩ | ⟨_, ⟨twin | ⟨m, _, lt, _⟩, _⟩ | ⟨_, ⟨full, _⟩ | ⟨_, ⟨spent, _⟩ | ⟨_, none⟩⟩⟩⟩
  · exact imageA_fields k fails
  · obtain ⟨i, l, live, _⟩ := twin
    have free := all_slots (s := device .standby 0#32) (P := fun _ sl => !sl.body.isLive) (by decide +kernel) i
    rw [show (device .standby 0#32).slot i = _ from rfl] at free
    have live' : ((device .standby 0#32).slot i).body = .live l := live
    rw [live'] at free
    cases free
  · exact absurd lt (Nat.not_lt_zero m)
  · exact absurd full (show ¬ freeCount (device .standby 0#32) < 1 by decide +kernel)
  · rcases spent with spent | spent
    · cases spent
    · exact absurd (show 4294967295 < 0 + 1 - 1 from spent) (by decide)
  · exact none

theorem witness_CommitAnswersByValidation :
    (Taken .commit (f1 .commit []) (committing [.insert imageA]) ∧
      (committing [.insert imageA]).edu.txn = .opened ∧
      ∀ n reason field, ¬ CommitRejected (committing [.insert imageA]) n reason field) ∧
    CommitRejected (committing [.insert imageA, .renew 0x0004#16]) 1 .notLive 0 ∧
    CommitRejected (committing [.insert (imageA.set 12 2#8)]) 0 .field 8 ∧
    CommitRejected (committing []) 0 .empty 0 ∧
    (Taken .commit (f1 .commit []) (device .standby 0#32) ∧ (device .standby 0#32).edu.txn = .closed) ∧
    (let s := editing .building [.insert imageA] (device .standby 0#32)
     Taken .commit (f1 .commit []) s ∧ s.edu.txn = .building) := by
  have rewritten : DefinitionFieldFails (imageA.set 12 2#8) 8 :=
    Or.inl (And.intro (by decide +kernel) (by decide +kernel))
  refine ⟨⟨by decide +kernel, rfl, ?_⟩, .inr ⟨⟨_, rfl, .inl ⟨by decide +kernel, rfl⟩, fun h => (by cases h), fun _ => rfl⟩, ?_⟩,
    .inr ⟨⟨_, rfl, .inl ⟨⟨8, rewritten⟩, rfl⟩, fun _ => ⟨rewritten, ?_⟩, fun h => absurd rfl h⟩, ?_⟩,
    .inl ⟨rfl, rfl, rfl, rfl⟩, by decide +kernel, by decide +kernel⟩
  · rintro n reason field (⟨none, _⟩ | ⟨failure, _⟩)
    · cases none
    · obtain rfl : n = 0 := by
        obtain ⟨op, h, _⟩ := failure
        have := (List.getElem?_eq_some_iff.1 h).1
        simpa [editing] using this
      exact insertA_passes [] reason field failure
  · intro m reason field lt
    obtain rfl : m = 0 := by omega
    exact insertA_passes _ reason field
  · intro k lt h
    change DefinitionFieldFails _ k at h
    unfold DefinitionFieldFails ActionFieldFails at h
    split at h <;> try first | omega | exact absurd h (by decide +kernel)
    split at h <;> first | omega | exact absurd h (by decide +kernel)
  · intro m _ _ lt
    exact absurd lt (Nat.not_lt_zero m)

/-- An accepted list with each op kind, two INSERTs among them, and a rejected one. -/
theorem witness_AcceptedOpsAreSound :
    (let other : LiveEntry := { entry actionA .opened none with
        entry := { (entry actionA .opened none).entry with
          definition := { (entry actionA .opened none).entry.definition with sources := 0x04#8 }
          serial := 1#32 } }
     let s := editing .opened [.insert imageB, .amend 0#16 ((imageA.drop 10).take 20), .remove 0#16,
        .renew 1#16, .insert imageA]
      ((withEntry (entry actionA .opened none) (device .standby 0#32)).setSlot 1 ⟨0#6, .live other⟩)
     validate s = none ∧ insertCount s.edu.ops ≠ 0) ∧
    validate (committing [.insert (imageA.set 12 2#8)]) = some (0, .field, 8) := by decide +kernel

/-- A failing op at index 1, and two ops whose targets are LIVE. -/
theorem witness_CutoverAppliesOrFails :
    (let s := editing .building [.insert imageA, .renew 0x0004#16] (device .active 4001#32)
     s.edu.txn = .building ∧ s.edu.ops[1]? = some (.renew 0x0004#16) ∧
      (Op.renew 0x0004#16).target = some 0x0004#16 ∧ s.namedLive 0x0004#16 = none ∧
      ∀ m, m < 1 → ∀ op, s.edu.ops[m]? = some op → ∀ w, op.target = some w →
        (s.namedLive w).isSome = true) ∧
    (let s := editing .building [.insert imageB, .renew 0#16]
      (withEntry (entry actionA .opened none) (device .active 4001#32))
     s.edu.txn = .building ∧ ∀ op ∈ s.edu.ops, ∀ w, op.target = some w → (s.namedLive w).isSome = true) := by
  refine ⟨⟨rfl, rfl, rfl, by decide +kernel, fun m h op ho w hw => ?_⟩, rfl, fun op ho w hw => ?_⟩
  · obtain rfl : m = 0 := by omega
    cases ho
    cases hw
  · simp only [editing, List.mem_cons, List.not_mem_nil, or_false] at ho
    obtain rfl | rfl := ho
    · cases hw
    · cases hw
      decide +kernel

/-- Slot 1 is the lowest FREE one; slot 0 is LIVE without a ticket, with an OFFERED and with a PENDING
one. -/
theorem witness_OpsAtCutover :
    (let s := withEntry (entry actionA .opened none) (device .active 0#32)
     (s.slot 1).body = .free ∧ (∀ j, j < 1 → (s.slot j).body.isFree = false) ∧ s.namedLive 0#16 = some 0 ∧
      (s.slot 0).body = .live (entry actionA .opened none) ∧ (entry actionA .opened none).ticket = none) ∧
    (let s := paced .active 0#32 (.offered (ticketOf 0) false none) []
     s.namedLive 0#16 = some 0 ∧ (s.slot 0).body = .live (entry actionA .shut (some id0)) ∧
      (entry actionA .shut (some id0)).ticket = some id0 ∧
      (s.record id0.number).body = .offered (ticketOf 0) false none) ∧
    (let s := paced .active 0#32 (.pending (ticketOf 0)) []
     s.namedLive 0#16 = some 0 ∧ (s.slot 0).body = .live (entry actionA .shut (some id0)) ∧
      (s.record id0.number).body = .pending (ticketOf 0) ∧ (ticketOf 0).handle.slot = 0) := by
  decide +kernel

theorem witness_ImageIsKeptAsGiven :
    imageC.length = 32 ∧ definitionFailure imageC = none ∧ ((imageC.drop 10).take 20).length = 20 ∧
    actionFailure ((imageC.drop 10).take 20) = none := by decide +kernel

theorem witness_HostFramesDecode :
    (f1 .begin (List.replicate 60 0xB5#8)).params.length ≤ 60 ∧ hostCmdOf 0x36#8 = none ∧
    frameComplete [0x05#8, 0x00#8] = false ∧ frameComplete [] = false := by decide +kernel

theorem witness_LinkFramesArrive :
    ∀ c ∈ ([[0xB5#8], List.replicate 10 0xB4#8] : List (List Byte)), c ≠ [] := by decide

/-- The paced gateway with its PENDING ticket and a tick waiting. -/
def sound : State := { paced .active 2120#32 (.pending (ticketOf 1)) [] with
  pending := [.timebaseTick]
  rtb := { (paced .active 2120#32 (.pending (ticketOf 1)) []).rtb with nextSerial := 1#32 } }

theorem step_sound : ∃ t, step sound = .next t := ⟨_, rfl⟩

theorem witness_StepKeepsControlEventsAndInit :
    ControlSound sound ∧ EventsSound sound ∧ EditSound sound ∧ InitSound sound :=
  ⟨⟨by decide +kernel, by decide +kernel, by decide +kernel, by decide +kernel, by decide +kernel⟩,
    ⟨by decide +kernel, by decide +kernel⟩, ⟨fun _ => rfl, by decide +kernel⟩,
    have h : sound.ctu.device ≠ .init := by decide +kernel
    ⟨fun e => absurd e h, fun e => absurd e h, fun e => absurd e h, fun e => absurd e h, fun e => absurd e h⟩⟩

theorem witness_StepKeepsPorts : PortsSound sound := by
  refine ⟨fun p => ⟨?_, ?_, ?_, ?_⟩, ?_, ?_⟩ <;> first | (revert p; decide +kernel) | decide +kernel

/-- A slot's ticket field is the id of a record that holds the slot's handle. -/
def fieldLinked (s : State) (i : SlotNo) (sl : Slot) : Bool :=
  match sl.body.ticket? with
  | none => true
  | some t => t == s.ticketId t.number &&
      match (s.record t.number).body.held? with
      | none => false
      | some h => h.handle == s.handleOf i

/-- A record's ticket holds the handle of a slot whose ticket field is its id. -/
def recordLinked (s : State) (r : RecNo) : Bool :=
  match (s.record r).body.held? with
  | none => true
  | some h => h.handle == s.handleOf h.handle.slot &&
      (s.slot h.handle.slot).body.ticket? == some (s.ticketId r)

/-- Tickets whose entries and records name each other, slot by slot and record by record. -/
theorem linked_of {s : State} (slots : (numberedSlots s).all (fun x => fieldLinked s x.1 x.2) = true)
    (records : ∀ r, recordLinked s r = true) : TicketsLinked s := by
  refine ⟨fun i t h => ?_, fun r h e => ?_⟩
  · have each := all_slots (P := fieldLinked s) slots i
    rw [fieldLinked, h] at each
    cases e : (s.record t.number).body.held? with
    | none => simp [e] at each
    | some k =>
      simp only [e, Bool.and_eq_true, beq_iff_eq] at each
      exact ⟨each.1, k, rfl, each.2⟩
  · have each := records r
    simpa only [recordLinked, e, Bool.and_eq_true, beq_iff_eq] using each

/-- What a slot holds has the shape of an entry. -/
def slotShaped (s : State) (sl : Slot) : Bool :=
  match sl.body with
  | .free => true
  | .live l => l.deadline.isSome
    == (l.entry.action.lifetimeKind == .idle || l.entry.action.lifetimeKind == .fixed)
  | .retiring e cause k => (s.record k.number).body.isOffered ||
    ((s.record k.number).body.isPending && (e.action.flags.single && cause == .spent))
  | .retired e cause => (cause == .expired || cause == .spent) && !e.action.flags.quiet

/-- The shape of the entries, slot by slot. -/
theorem shaped_of {s : State} (slots : (numberedSlots s).all (fun x => slotShaped s x.2) = true) :
    EntriesShaped s := by
  have each := all_slots (P := fun _ => slotShaped s) slots
  refine ⟨fun i l h => ?_, fun i e c k h => ?_, fun i e c h => ?_⟩ <;>
    have shape := each i <;> rw [slotShaped, h] at shape
  · rw [beq_iff_eq.1 shape, Bool.or_eq_true, beq_iff_eq, beq_iff_eq]
  · simpa using shape
  · simpa using shape

/-- In FALLBACK, an IDLE LIVE entry and a spent SINGLE one that own PENDING tickets, both ESSENTIAL, an
expired entry whose ticket is OFFERED, and a RETIRED one. -/
def shaped : State :=
  let held (i : SlotNo) : Held := ⟨⟨0#6, i⟩, 1, 0x02#8, 0x000311#24, 2140#32⟩
  let with_ (single : Bool) : Action := { actionA with flags := ⟨single, true, false, false⟩ }
  let s := gateway .fallback 2120#32 []
  let s := s.setSlot 0 ⟨0#6, .live { entry { with_ false with
    lifetimeKind := .idle, lifetimeValue := 9#24 } .shut (some ⟨1#4, 0⟩) with deadline := some 2129#32 }⟩
  let s := s.setSlot 1 ⟨0#6, .retiring (entry (with_ true) .shut none).entry .spent ⟨1#4, 1⟩⟩
  let s := s.setSlot 2 ⟨0#6, .retiring (entry actionA .shut none).entry .expired ⟨1#4, 2⟩⟩
  let s := s.setSlot 3 ⟨0#6, .retired (entry actionA .shut none).entry .expired⟩
  let s := ((s.setRecord 0 ⟨1#4, .pending (held 0)⟩).setRecord 1 ⟨1#4, .pending (held 1)⟩).setRecord 2
    ⟨1#4, .offered (held 2) true none⟩
  { s with
    pending := [.timebaseTick]
    rlu := { s.rlu with freeOrder := (List.finRange 96).drop 3, releaseList := [0, 1] } }

theorem witness_StepKeepsTickets :
    (TicketsSound sound ∧ PendingSound sound ∧ EntriesShaped sound) ∧
    (∃ t, step shaped = .next t) ∧ TicketsSound shaped ∧ PendingSound shaped ∧ EntriesShaped shaped := by
  refine ⟨⟨⟨⟨by decide +kernel, by decide +kernel, by decide +kernel, by decide +kernel⟩,
      linked_of (by decide +kernel) (by decide +kernel)⟩,
      ⟨fun r _ => Or.inl rfl, fun r _ _ e => absurd e (by decide +kernel)⟩, shaped_of (by decide +kernel)⟩,
    ⟨_, rfl⟩, ⟨⟨by decide +kernel, by decide +kernel, by decide +kernel, by decide +kernel⟩,
      linked_of (by decide +kernel) (by decide +kernel)⟩,
    ⟨fun r _ => Or.inr rfl, fun r h e _ => ?_⟩, shaped_of (by decide +kernel)⟩
  have two : ∀ r, (shaped.record r).body.isPending = true → r = 0 ∨ r = 1 := by decide +kernel
  rcases two r (by rw [e]; rfl) with rfl | rfl <;> cases e <;> exact ⟨_, rfl, rfl⟩

/-- Slot 0 holds the only entry of the sound state. -/
theorem sound_entry : ∀ i, (sound.slot i).body.entry?.map Entry.serial = if i = 0 then some 0#32 else none :=
  fun i => by
    simpa using all_slots (P := fun i sl => sl.body.entry?.map Entry.serial == if i = 0 then some 0#32 else none)
      (by decide +kernel) i
theorem sound_live : ∀ i, (sound.slot i).body.live?.isSome = decide (i = 0) := fun i => by
  simpa using all_slots (P := fun i sl => sl.body.live?.isSome == decide (i = 0)) (by decide +kernel) i

/-- A LIVE entry of the sound state stands in slot 0. -/
theorem sound_only {i : SlotNo} {l : LiveEntry} (h : (sound.slot i).body.live? = some l) : i = 0 := by
  have := sound_live i
  rw [h] at this
  simpa using this.symm

theorem witness_StepKeepsSerials : SerialsSound sound := by
  refine ⟨fun i e h _ => ?_, fun i j a b hi hj _ => (sound_only hi).trans (sound_only hj).symm,
    fun e => absurd e (by decide +kernel), fun e => absurd e (by decide +kernel)⟩
  have := sound_entry i
  rw [h] at this
  split at this
  · have zero : e.serial = 0#32 := by simpa using this
    rw [zero]
    decide +kernel
  · cases this

theorem witness_StepKeepsCriteria : CriteriaSound sound :=
  ⟨fun i j a b hi hj _ => (sound_only hi).trans (sound_only hj).symm, fun e => absurd e (by decide +kernel)⟩

/-- A CUTOVER that applies one op, and RESET# falling after it. -/
theorem witness_GenerationCountsCutovers :
    (let s := editing .building [.insert imageA] (device .standby 0#32)
     exec .cutover s = .next (after .cutover s) ∧ (after .cutover s).rtb.generation ≠ s.rtb.generation) ∧
    (let s := after .cutover (editing .building [.insert imageA] (device .standby 0#32))
     exec .hardReset s = .next (after .hardReset s) ∧
      (after .hardReset s).rtb.generation ≠ s.rtb.generation) :=
  ⟨⟨exec_after (by decide +kernel), by decide +kernel⟩, exec_after (by decide +kernel), by decide +kernel⟩

/-- The expiry of a QUIET entry, in its own slot and beside it. -/
theorem witness_EraCountsEntriesIntoFree :
    let s := withEntry { entry { actionA with flags := ⟨false, false, false, true⟩ } .opened none with
      deadline := some 500#32 } (device .active 500#32)
    exec (.deadlineExpiry 0) s = .next (after (.deadlineExpiry 0) s) ∧
      Instr.deadlineExpiry 0 ≠ .cutover ∧ Instr.deadlineExpiry 0 ≠ .memoryClearComplete ∧
      isResetCommand (.deadlineExpiry 0) = false ∧ (s.slot 0).body.isFree = false ∧
      ((after (.deadlineExpiry 0) s).slot 0).body.isFree = true ∧ (s.slot 1).body.isFree = true :=
  ⟨exec_after (by decide +kernel), by decide +kernel⟩

end Sys2Proof.Tests
end

section
/-!
The inspection commands NOP, IDENTIFY and TABLE_SUMMARY (R151 to R153).
-/

namespace Sys2Proof.Machine

/-! ### What exec runs for each command -/

theorem exec_nop (f : HostFrame) (s : State) :
    exec (.nop f) s = .next (hostCommand .nop f (runNop f.params) s) := rfl

theorem exec_identify (f : HostFrame) (s : State) :
    exec (.identify f) s = .next (hostCommand .identify f (runIdentify f.params) s) := rfl

theorem exec_tableSummary (f : HostFrame) (s : State) :
    exec (.tableSummary f) s = .next (hostCommand .tableSummary f (runTableSummary f.params) s) := rfl

/-! ### Host commands in INIT (R145) -/

/-- In INIT every command but NOP is answered NOT_READY once its frame has passed the check, whatever the
number of its parameters. -/
theorem hostCommand_notReady {c : HostCmd} {f : HostFrame} {s : State} (seen : spiUnseen s = false)
    (len : f.params.length ≤ Config.maxParams) (chk : frameChecks (hostCode c) f = true)
    (init : s.ctu.device = .init) (other : c ≠ .nop) (run : State → State × Reply) :
    hostCommand c f run s = s.answered f.seq .notReady [] := by
  have code : hostCode c ≠ hostCode .nop := fun e => other (hostCode_injective c .nop e)
  simp [hostCommand, closeFrame, seen, Nat.not_lt.mpr len, chk, init, code, closeSpi_eq_answered, Reply.bare]

/-! ### Counting by state (R1, R51, R153) -/

/-- When each item of a list meets exactly one of some conditions, the counts by condition sum to the list's
length. -/
theorem sum_countP_of_exactly_one {α : Type} (conditions : List (α → Bool)) :
    ∀ xs : List α, (∀ x, (conditions.map (fun p => if p x then 1 else 0)).sum = 1) →
      (conditions.map (fun p => xs.countP p)).sum = xs.length
  | [], _ => by simp
  | x :: rest, one => by
    simp only [List.countP_cons, List.sum_map_add, one x, List.length_cons,
      sum_countP_of_exactly_one conditions rest one]

/-- Each slot is in exactly one state, so the four counts sum to the number of slots. -/
theorem RouteTable.count_states (t : RouteTable) :
    t.count SlotBody.isFree + t.count SlotBody.isLive + t.count SlotBody.isRetiring
      + t.count SlotBody.isRetired = 512 := by
  have one : ∀ sl : Slot, ([fun sl : Slot => sl.body.isFree, fun sl => sl.body.isLive,
      fun sl => sl.body.isRetiring, fun sl => sl.body.isRetired].map
        (fun p => if p sl then 1 else 0)).sum = 1 := by
    rintro ⟨era, body⟩
    cases body <;> rfl
  simpa [RouteTable.count, Nat.add_assoc] using sum_countP_of_exactly_one _ t.slots.toList one

/-- Each record is in exactly one state, so the three counts sum to the number of records. -/
theorem ReleaseUnit.count_states (u : ReleaseUnit) :
    u.count TicketBody.isPending + u.count TicketBody.isOffered + u.count TicketBody.isFree = 96 := by
  have one : ∀ r : TicketRecord, ([fun r : TicketRecord => r.body.isPending, fun r => r.body.isOffered,
      fun r => r.body.isFree].map (fun p => if p r then 1 else 0)).sum = 1 := by
    rintro ⟨serial, body⟩
    cases body <;> rfl
  simpa [ReleaseUnit.count, Nat.add_assoc] using sum_countP_of_exactly_one _ u.records.toList one

/-! ### The statements -/

/-- Settles O36: the counts are those the response holds, and each slot and each record is counted once. -/
theorem tableSummaryCounts : Obligations.TableSummaryCounts := by
  intro s f taken
  refine ⟨_, _, _, _, _, _, _, rfl, rfl, rfl, rfl, s.rtb.count_states, rfl, rfl, rfl,
    s.rlu.count_states, ?_⟩
  rw [exec_tableSummary, hostCommand_taken taken]
  rfl

/-- Settles O34: NOP's frame passes every test of R145, INIT's among them, and its run leaves the state. -/
theorem nopAnswersOk : Obligations.NopAnswersOk := by
  intro s f seen params chk
  have taken : Taken .nop f s := ⟨seen, by rw [params]; rfl, chk, .inl rfl⟩
  rw [exec_nop, hostCommand_taken taken]
  rfl

/-- The bytes of IDENTIFY are the fields of R152, most significant byte first. -/
theorem identifyData_fields : Config.identifyData
    = be16 0x0F3A#16 ++ be16 0x8520#16 ++ [0x01#8] ++ be16 512#16 ++ [96#8, 8#8, 16#8] := by decide

/-- Settles O35: outside INIT the frame is taken and the part's bytes are the reply; in INIT it stops at the
test of INIT. -/
theorem identifyReportsPart : Obligations.IdentifyReportsPart := by
  intro s f seen params chk
  constructor
  · intro ready
    have taken : Taken .identify f s := ⟨seen, by rw [params]; rfl, chk, .inr ready⟩
    rw [exec_identify, hostCommand_taken taken, ← identifyData_fields]
    rfl
  · intro init
    have len : f.params.length ≤ Config.maxParams := by simp [params]
    have good : frameChecks (hostCode .identify) f = true := chk
    rw [exec_identify, hostCommand_notReady seen len good init (by decide)]

end Sys2Proof.Machine
end

section
/-!
The event report READ_EVENTS (R183).
-/

namespace Sys2Proof.Machine

theorem exec_readEvents (f : HostFrame) (s : State) :
    exec (.readEvents f) s = .next (hostCommand .readEvents f (runReadEvents f.params) s) := rfl

/-- The data bytes of the report that READ_EVENTS returns. -/
abbrev eventReport (params : List Byte) (s : State) : List Byte := (runReadEvents params s).2.data

/-- A two-byte field is read back from where it was written (R188). -/
theorem halfAt_be16_append (v : Half) (rest : List Byte) : halfAt (be16 v ++ rest) 0 = v := be16_join v

/-- The first five bytes of the report, the level codes after them (R183). -/
theorem eventReport_eq (params : List Byte) (s : State) :
    eventReport params s = be16 (s.evu.flags.setWidth 16) ++
      ([s.evu.overrunPorts, s.evu.linkErrorPorts, s.ctu.cause.code]
        ++ s.evu.levels.toList.map EventLevel.code) := rfl

theorem eventReport_length (params : List Byte) (s : State) : (eventReport params s).length = 16 := by
  simp [eventReport_eq]

/-- The first field is the pending set, with bits 11 to 15 zero. -/
theorem eventReport_pendingSet (params : List Byte) (s : State) :
    halfAt (eventReport params s) 0 = s.evu.flags.setWidth 16 := by
  rw [eventReport_eq, halfAt_be16_append]

/-- Byte 5 + k is the level code of kind k. -/
theorem eventReport_level (params : List Byte) (s : State) (k : Fin 11) :
    byteAt (eventReport params s) (5 + k.val) = s.evu.levels[k.val].code := by
  have tail : (eventReport params s).drop 5 = s.evu.levels.toList.map EventLevel.code := rfl
  rw [← byteAt_drop, tail]
  simp [byteAt]

/-- Settles O44: the frame is taken, the run leaves the state, and its reply is the report, read field by
field. -/
theorem readEventsReports : Obligations.ReadEventsReports := by
  intro s f taken
  refine ⟨eventReport f.params s, ?answer, eventReport_length _ _, ?pending, ?bound,
    rfl, rfl, rfl, ?levels⟩
  case answer =>
    rw [exec_readEvents, hostCommand_taken taken]
    rfl
  case pending =>
    intro k
    rw [eventReport_pendingSet, BitVec.getLsbD_setWidth]
    simp [show k.val < 16 by omega]
  case bound =>
    rw [eventReport_pendingSet, BitVec.toNat_setWidth_of_le (by decide)]
    exact s.evu.flags.isLt
  case levels =>
    intro k
    rw [eventReport_level]
    rfl

end Sys2Proof.Machine
end

section
/-!
What an operation on entries and tickets can do to the table, said once: each slot evolves, and the rest of
the device stands. The statements about serials, criteria, eras and the generation are read from it.
-/

namespace Sys2Proof.Machine

/-! ### How a slot evolves (R3, R13, R81, R84) -/

/-- A LIVE entry has a deadline exactly when its lifetime kind is IDLE or FIXED (R13). -/
def LiveEntry.Timed (l : LiveEntry) : Prop :=
  l.deadline.isSome = true ↔
    l.entry.action.lifetimeKind = .idle ∨ l.entry.action.lifetimeKind = .fixed

/-- What happens to a slot in every operation but an INSERT, an AMEND and a hard reset: a FREE slot stays as it
is, the era counts the entering of FREE, no entry is new, no entry becomes LIVE, and an entry that becomes
RETIRED has another cause than REMOVED and lacks QUIET. -/
structure Slot.Evolves (a b : Slot) : Prop where
  free    : a.body.isFree = true → b = a
  era     : b.era = a.era + (if a.body.isFree = false ∧ b.body.isFree = true then 1#6 else 0#6)
  entry   : ∀ e', b.body.entry? = some e' →
    ∃ e, a.body.entry? = some e ∧ e'.definition = e.definition ∧ e'.serial = e.serial
  live    : ∀ m, b.body = .live m → ∃ l, a.body = .live l ∧ (l.Timed → m.Timed)
  retired : ∀ e c, b.body = .retired e c →
    a.body = .retired e c ∨ c ≠ .removed ∧ e.action.flags.quiet = false

theorem Slot.Evolves.refl (a : Slot) : a.Evolves a where
  free _ := rfl
  era := by cases h : a.body.isFree <;> simp
  entry e h := ⟨e, h, rfl, rfl⟩
  live m h := ⟨m, h, id⟩
  retired _ _ h := .inl h

theorem Slot.Evolves.trans {a b c : Slot} (f : a.Evolves b) (g : b.Evolves c) : a.Evolves c where
  free h := by
    obtain rfl := f.free h
    exact g.free h
  era := by
    cases ha : a.body.isFree with
    | true =>
      obtain rfl := f.free ha
      simpa [ha] using g.era
    | false =>
      cases hb : b.body.isFree with
      | true =>
        obtain rfl := g.free hb
        simpa [ha, hb] using f.era
      | false =>
        have hf := f.era
        have hg := g.era
        simp only [ha, hb, Bool.false_eq_true, and_false, if_false, true_and, BitVec.add_zero] at hf hg ⊢
        rw [hg, hf]
  entry e h := by
    obtain ⟨e1, h1, d1, n1⟩ := g.entry e h
    obtain ⟨e2, h2, d2, n2⟩ := f.entry e1 h1
    exact ⟨e2, h2, d1.trans d2, n1.trans n2⟩
  live m h := by
    obtain ⟨l, hl, tl⟩ := g.live m h
    obtain ⟨k, hk, tk⟩ := f.live l hl
    exact ⟨k, hk, tl ∘ tk⟩
  retired e c h := by
    rcases g.retired e c h with h | h
    · exact f.retired e c h
    · exact .inr h

/-- A LIVE entry that changes in its match count, window, deadline or ticket alone evolves. -/
theorem Slot.evolves_live {era : BitVec 6} {l m : LiveEntry} (d : m.entry.definition = l.entry.definition)
    (n : m.entry.serial = l.entry.serial) (t : l.Timed → m.Timed) :
    Slot.Evolves ⟨era, .live l⟩ ⟨era, .live m⟩ where
  free h := by cases h
  era := by simp [SlotBody.isFree]
  entry e h := by
    obtain rfl : m.entry = e := by simpa [SlotBody.entry?] using h
    exact ⟨l.entry, rfl, d, n⟩
  live k h := by
    obtain rfl : m = k := by simpa using h
    exact ⟨l, rfl, t⟩
  retired e c h := by cases h

/-- An entry that leaves LIVE, or is held RETIRING, evolves. -/
theorem Slot.evolves_retiring {era : BitVec 6} {b : SlotBody} {e e' : Entry} (c : RetireCause) (k : TicketId)
    (h : b.entry? = some e) (d : e'.definition = e.definition) (n : e'.serial = e.serial) :
    Slot.Evolves ⟨era, b⟩ ⟨era, .retiring e' c k⟩ where
  free hf := by cases b <;> simp_all [SlotBody.isFree, SlotBody.entry?]
  era := by simp [SlotBody.isFree]
  entry x hx := by
    obtain rfl : e' = x := by simpa [SlotBody.entry?] using hx
    exact ⟨e, h, d, n⟩
  live _ hx := by cases hx
  retired _ _ hx := by cases hx

/-- An entry that enters FREE evolves (R81, R86). -/
theorem Slot.evolves_free {era : BitVec 6} {b : SlotBody} (h : b.isFree = false) :
    Slot.Evolves ⟨era, b⟩ ⟨era + 1#6, .free⟩ where
  free hf := by simp [h] at hf
  era := by
    have entered : SlotBody.free.isFree = true := rfl
    simp [h, entered]
  entry _ hx := by cases hx
  live _ hx := by cases hx
  retired _ _ hx := by cases hx

/-- An entry whose retirement finishes evolves (R81). -/
theorem Slot.evolves_finished {era : BitVec 6} {b : SlotBody} {e : Entry} (c : RetireCause)
    (h : b.entry? = some e) : Slot.Evolves ⟨era, b⟩ (finishedSlot era c e) := by
  have notFree : b.isFree = false := by cases b <;> simp_all [SlotBody.isFree, SlotBody.entry?]
  unfold finishedSlot
  split
  · exact Slot.evolves_free notFree
  · rename_i kept
    rw [not_or] at kept
    refine ⟨by simp [notFree], by simp [SlotBody.isFree], ?_, by simp, ?_⟩
    · intro x hx
      obtain rfl : e = x := by simpa [SlotBody.entry?] using hx
      exact ⟨e, h, rfl, rfl⟩
    · intro x d hx
      obtain ⟨rfl, rfl⟩ : e = x ∧ c = d := by simpa using hx
      exact .inr ⟨kept.1, by simpa using kept.2⟩

/-- A slot whose entry's ticket completes evolves (R70). -/
theorem Slot.evolves_ticketDone (sl : Slot) : sl.Evolves sl.ticketDone := by
  obtain ⟨era, body⟩ := sl
  cases body with
  | free => exact .refl _
  | live l => exact evolves_live (m := { l with ticket := none }) rfl rfl id
  | retiring e c k => exact evolves_finished c rfl
  | retired e c => exact .refl _

/-! ### What the operations on entries and tickets keep -/

/-- The port sets, and the flags of the two kinds that have one, stand (R179). -/
structure EventUnit.SetsKept (a b : EventUnit) : Prop where
  overrun      : b.isPending .portOverrun = a.isPending .portOverrun
  link         : b.isPending .linkError = a.isPending .linkError
  overrunPorts : b.overrunPorts = a.overrunPorts
  linkPorts    : b.linkErrorPorts = a.linkErrorPorts

/-- An operation on entries, tickets and ports: every slot evolves, and the table's counters, the transaction,
the host port, the control unit and the port sets of the event unit stand. -/
structure Inner (s t : State) : Prop where
  slots : ∀ i, (s.slot i).Evolves (t.slot i)
  rest  : RestKept s t
  sets  : s.evu.SetsKept t.evu
  queue : t.pending = s.pending

theorem Inner.refl (s : State) : Inner s s where
  slots _ := .refl _
  rest := ⟨⟨rfl, rfl, rfl⟩, rfl, rfl, rfl⟩
  sets := ⟨rfl, rfl, rfl, rfl⟩
  queue := rfl

theorem Inner.trans {s t u : State} (f : Inner s t) (g : Inner t u) : Inner s u := by
  obtain ⟨fs, ⟨⟨f1, f2, f3⟩, f4, f5, f6⟩, ⟨f7, f8, f9, f10⟩, fq⟩ := f
  obtain ⟨gs, ⟨⟨g1, g2, g3⟩, g4, g5, g6⟩, ⟨g7, g8, g9, g10⟩, gq⟩ := g
  exact ⟨fun i => (fs i).trans (gs i),
    ⟨⟨g1.trans f1, g2.trans f2, g3.trans f3⟩, g4.trans f4, g5.trans f5, g6.trans f6⟩,
    ⟨g7.trans f7, g8.trans f8, g9.trans f9, g10.trans f10⟩, gq.trans fq⟩

section
variable (s : State)

theorem inner_setSlot {i : SlotNo} {v : Slot} (h : (s.slot i).Evolves v) : Inner s (s.setSlot i v) :=
  { Inner.refl s with
    slots := fun j => by
      rw [State.slot_setSlot]
      split
      · rename_i e; subst e; exact h
      · exact .refl _ }

theorem inner_setBody {i : SlotNo} {b : SlotBody} (h : (s.slot i).Evolves ⟨(s.slot i).era, b⟩) :
    Inner s (s.setBody i b) := inner_setSlot s h

theorem inner_setPort (p : PortNo) (q : Port) : Inner s (s.setPort p q) := { Inner.refl s with }
theorem inner_place (p : PortNo) (b : OutBody) : Inner s (place p b s) := { Inner.refl s with }
theorem inner_popInbound (p : PortNo) : Inner s (popInbound p s) := { Inner.refl s with }
theorem inner_pointer (p : PortNo) : Inner s { s with pointer := p } := { Inner.refl s with }
theorem inner_releaseUnit (u : ReleaseUnit) : Inner s { s with rlu := u } := { Inner.refl s with }

theorem inner_raise {k : EventKind} (h : k ≠ .portOverrun) (h' : k ≠ .linkError) : Inner s (raise k s) :=
  { Inner.refl s with
    sets := by
      refine ⟨?_, ?_, rfl, rfl⟩ <;>
        cases k <;> simp_all [EventUnit.isPending, EventKind.bit, EventKind.number] }

theorem inner_completeTicket (r : RecNo) : Inner s (completeTicket r s) := by
  cases hh : (s.record r).body.held? with
  | none => simp only [completeTicket, hh]; exact .refl s
  | some h =>
    rw [completeTicket_eq hh]
    exact (inner_releaseUnit s _).trans (inner_setSlot (freeRecord r s) (Slot.evolves_ticketDone _))

theorem inner_withdraw (reason : WithdrawReason) (r : RecNo) : Inner s (withdraw reason r s) := by
  unfold withdraw
  split
  · exact (inner_place s _ _).trans (inner_completeTicket _ r)
  · exact .refl s
  · exact .refl s

theorem inner_withdrawAll (reason : WithdrawReason) : ∀ (rs : List RecNo) (s : State),
    Inner s (withdrawAll reason rs s)
  | [], s => .refl s
  | r :: rest, s => (inner_withdraw s reason r).trans (inner_withdrawAll reason rest (withdraw reason r s))

theorem inner_completeAll : ∀ (rs : List RecNo) (s : State), Inner s (completeAll rs s)
  | [], s => .refl s
  | r :: rest, s => (inner_completeTicket s r).trans (inner_completeAll rest (completeTicket r s))

theorem inner_withdrawOf (reason : WithdrawReason) (i : SlotNo) : Inner s (withdrawOf reason i s) := by
  unfold withdrawOf
  split
  · exact inner_withdraw s reason _
  · exact .refl s

end

/-- The retirement procedure: the PENDING ticket withdrawn unless the entry is spent, and then the entry of a
LIVE slot RETIRING or finished (R80). -/
theorem retire_cases (c : RetireCause) (i : SlotNo) (s : State) :
    ∃ u, (u = s ∨ c ≠ .spent ∧ ∃ reason, u = withdrawOf reason i s) ∧
      ((∃ l k, (u.slot i).body = .live l ∧ l.ticket = some k ∧
          retire c i s = u.setBody i (.retiring l.entry c k)) ∨
       (∃ l, (u.slot i).body = .live l ∧ l.ticket = none ∧
          retire c i s = u.setSlot i (finishedSlot (u.slot i).era c l.entry)) ∨
       (u.slot i).body.isLive = false ∧ retire c i s = u) := by
  refine ⟨if (s.slot i).body.isLive then
      (match c with
        | .removed => withdrawOf .removed i s
        | .expired => withdrawOf .expired i s
        | .spent => s)
    else s, ?_, ?_⟩
  · split
    · cases c with
      | removed => exact .inr ⟨by decide, _, rfl⟩
      | expired => exact .inr ⟨by decide, _, rfl⟩
      | spent => exact .inl rfl
    · exact .inl rfl
  · unfold retire
    extract_lets u
    have hu : u = if (s.slot i).body.isLive then
      (match c with
        | .removed => withdrawOf .removed i s
        | .expired => withdrawOf .expired i s
        | .spent => s)
      else s := rfl
    rw [← hu]
    clear_value u
    cases hb : (u.slot i).body with
    | live l =>
      cases ht : l.ticket with
      | some k => exact .inl ⟨l, k, rfl, ht, by simp only [ht]⟩
      | none => exact .inr (.inl ⟨l, rfl, ht, by simp only [ht]⟩)
    | free => exact .inr (.inr ⟨rfl, rfl⟩)
    | retiring e c' k => exact .inr (.inr ⟨rfl, rfl⟩)
    | retired e c' => exact .inr (.inr ⟨rfl, rfl⟩)

theorem Slot.eta_body {sl : Slot} {b : SlotBody} (h : sl.body = b) : sl = ⟨sl.era, b⟩ := by
  cases sl; cases h; rfl

section
variable (s : State)

theorem inner_retire (c : RetireCause) (i : SlotNo) : Inner s (retire c i s) := by
  obtain ⟨u, hu, h⟩ := retire_cases c i s
  have first : Inner s u := by
    rcases hu with rfl | ⟨-, reason, rfl⟩
    · exact .refl _
    · exact inner_withdrawOf s reason i
  rcases h with ⟨l, k, hb, -, e⟩ | ⟨l, hb, -, e⟩ | ⟨-, e⟩ <;> rw [e]
  · refine first.trans (inner_setBody u ?_)
    conv => arg 1; rw [Slot.eta_body hb]
    exact Slot.evolves_retiring c k rfl rfl rfl
  · refine first.trans (inner_setSlot u ?_)
    conv => arg 1; rw [Slot.eta_body hb]
    exact Slot.evolves_finished c rfl
  · exact first

/-- A LIVE entry written back with another match count, window, deadline or ticket. -/
theorem inner_setLive {i : SlotNo} {l m : LiveEntry} (h : (s.slot i).body = .live l)
    (d : m.entry.definition = l.entry.definition) (n : m.entry.serial = l.entry.serial)
    (t : l.Timed → m.Timed) : Inner s (s.setBody i (.live m)) := by
  refine inner_setBody s ?_
  conv => arg 1; rw [Slot.eta_body h]
  exact Slot.evolves_live d n t

theorem inner_setTicketField (i : SlotNo) (t : TicketId) : Inner s (setTicketField i t s) := by
  unfold setTicketField
  split
  · rename_i l h
    exact inner_setLive s h rfl rfl id
  all_goals exact .refl s

theorem inner_shutForOffer (i : SlotNo) (t : Tick) : Inner s (shutForOffer i t s) := by
  unfold shutForOffer
  split
  · rename_i l h
    exact inner_setLive s h rfl rfl id
  · rename_i e c k h
    refine inner_setBody s ?_
    conv => arg 1; rw [Slot.eta_body h]
    exact Slot.evolves_retiring c k rfl rfl rfl
  all_goals exact .refl s

theorem inner_offer (r : RecNo) (h : Held) (e : Entry) (dest : SegSet) : Inner s (offer r h e dest s) :=
  ((inner_releaseUnit s _).trans (inner_shutForOffer _ _ _)).trans (inner_place _ _ _)

theorem inner_fallDue (r : RecNo) (h : Held) : Inner s (fallDue r h s) := by
  unfold fallDue
  split
  · split
    · exact inner_withdraw s _ r
    · exact inner_offer s r h _ _
  · exact .refl s

theorem inner_createTicket (r : RecNo) (h : Held) : Inner s (createTicket r h s) :=
  (inner_releaseUnit s _).trans (inner_setTicketField _ _ _)

theorem inner_supersedeTicket (r : RecNo) (h : Held) (p : PortNo) (tag : Byte) (ident : Ident) :
    Inner s (supersedeTicket r h p tag ident s) :=
  ((inner_place s _ _).trans (inner_releaseUnit _ _)).trans (inner_setTicketField _ _ _)

theorem inner_spendNow (i : SlotNo) : Inner s (spendNow i s) :=
  (inner_retire s .spent i).trans (inner_raise _ (by decide) (by decide))

theorem inner_spendDeferred (i : SlotNo) : Inner s (spendDeferred i s) := by
  unfold spendDeferred
  split
  · rename_i l h
    split
    · rename_i t ht
      refine (inner_setBody s ?_).trans (inner_raise _ (by decide) (by decide))
      conv => arg 1; rw [Slot.eta_body h]
      exact Slot.evolves_retiring _ _ rfl rfl rfl
    · exact .refl s
  · exact .refl s

end

/-- The claim of a match keeps a deadline exactly with IDLE and FIXED (R35). -/
theorem LiveEntry.Timed.matched {l : LiveEntry} (h : l.Timed) (now : Tick) : (l.matched now).Timed := by
  unfold LiveEntry.Timed LiveEntry.matched Entry.action at *
  dsimp only
  split
  · rename_i e
    have : l.entry.definition.action.lifetimeKind = .idle := e
    simp [this]
  · exact h

theorem inner_answerIf {s t : State} (c : Bool) {f : State → State} (h : Inner s t)
    (hf : ∀ u, Inner u (f u)) : Inner s (if c = true then f t else t) := by
  split
  · exact h.trans (hf t)
  · exact h

/-- The claims of a lookup and its answer. -/
theorem inner_applyVerdict {q : Query} {tag : Byte} {i : SlotNo} {l : LiveEntry} {s : State}
    (h : (s.slot i).body = .live l) (v : Verdict) : Inner s (applyVerdict q tag i l v s) := by
  have counted : Inner s (s.setBody i (.live (l.matched s.ctu.now))) :=
    inner_setLive s h rfl rfl (fun t => t.matched _)
  unfold applyVerdict
  cases v with
  | drop reason dest =>
    refine Inner.trans ?_ (inner_place _ _ _)
    split
    · refine Inner.trans ?_ (inner_spendNow _ _)
      split
      · exact counted.trans (inner_raise _ (by decide) (by decide))
      · exact counted
    · split
      · exact counted.trans (inner_raise _ (by decide) (by decide))
      · exact counted
  | route dest paced =>
    refine Inner.trans ?_ (inner_place _ _ _)
    refine inner_answerIf _ ?_ (fun u => inner_spendNow u i)
    split
    · refine counted.trans (inner_setLive _ (l := l.matched s.ctu.now) ?_ rfl rfl id)
      simp
    · exact counted
  | create r dest =>
    refine Inner.trans ?_ (inner_place _ _ _)
    exact inner_answerIf _ (counted.trans (inner_createTicket _ _ _)) (fun u => inner_spendDeferred u i)
  | supersede r dest =>
    dsimp only
    split
    · refine Inner.trans ?_ (inner_place _ _ _)
      exact inner_answerIf _ (counted.trans (inner_supersedeTicket _ _ _ _ _ _))
        (fun u => inner_spendDeferred u i)
    · exact counted

end Sys2Proof.Machine
end

section
/-!
What a command can do, said once: `exec` inverted into one case per kind of effect, with the guards that hold
there. Every statement about what all steps keep is read from it.
-/

namespace Sys2Proof.Machine

/-! ### The effects on entries, tickets and ports (chapters 1 to 4 and 6) -/

/-- The state after an event that works on entries, tickets and ports, with what holds when it is taken. -/
inductive InnerEffect (s : State) : State → Prop
  | expire (i : SlotNo) : InnerEffect s (raise .entryExpired (retire .expired i s))
  | due (r : RecNo) (h : Held) : s.ctu.device = .active ∨ s.ctu.device = .fallback →
      (s.record r).body = .pending h → InnerEffect s (fallDue r h s)
  | timeout (r : RecNo) : InnerEffect s (raise .offerTimeout (completeTicket r s))
  | openWindow (i : SlotNo) (l : LiveEntry) : (s.slot i).body = .live l →
      InnerEffect s (s.setBody i (.live { l with window := .opened }))
  | queue (p : PortNo) (m : InMsg) : (s.port p).state = .opened →
      (s.port p).inbound.length < Config.inboundRoom →
      InnerEffect s (s.setPort p { s.port p with inbound := (s.port p).inbound ++ [m] })
  | receiver (p : PortNo) (v : Receiver) : (s.port p).state = .opened →
      InnerEffect s (s.setPort p { s.port p with receiver := v })
  | lookup (q : Query) (tag : Byte) : (s.port q.source).ready = true →
      InnerEffect s (answerLookup q tag (popInbound q.source { s with pointer := q.source + 1 }))
  | ack (p : PortNo) (id : Half) : (s.port p).ready = true →
      InnerEffect s (takeAck p id (popInbound p s))
  | cancel (p : PortNo) (id : Half) : (s.port p).ready = true →
      InnerEffect s (takeCancel p id (popInbound p s))
  | pong (p : PortNo) (tag : Byte) : (s.port p).ready = true → InnerEffect s
      (place p (.pong tag s.ctu.device s.rtb.generation (freeTickets s)) (popInbound p s))
  | leave (p : PortNo) (m : OutMsg) (rest : List OutMsg) (line : LineEnd) :
      (s.port p).state = .opened → (s.port p).outbound = m :: rest →
      InnerEffect s (s.setPort p { s.port p with outbound := rest, line := line })
  | leaveRelease (p : PortNo) (m : OutMsg) (rest : List OutMsg) (line : LineEnd) (k : TicketId) :
      (s.port p).state = .opened → (s.port p).outbound = m :: rest →
      InnerEffect s (markSent k (s.setPort p { s.port p with outbound := rest, line := line }))
  | openPort (p : PortNo) (quota : Nat) : quota ≤ Config.maxQuota → (s.port p).state = .closed →
      InnerEffect s (s.setPort p { s.port p with
        state := .opened
        quota := quota
        inbound := []
        outbound := [⟨false, .portUp s.ctu.device s.rtb.generation⟩]
        overrun := false
        receiver := .hunt })
  | closePort (p : PortNo) : (s.port p).state = .opened →
      InnerEffect s (closePort p (completeAll (recordsOwned s p) s))
  | collect (i : SlotNo) : (s.slot i).body.isRetired = true →
      InnerEffect s (s.setSlot i ⟨(s.slot i).era + 1#6, .free⟩)

/-! ### The effects of the host commands (chapters 4 to 9) -/

/-- The state of the device after a host command that was taken outside INIT, less the closing of the SPI
transaction. -/
inductive HostEffect (s : State) : State → Prop
  | idle : HostEffect s s
  | inner {u : State} : InnerEffect s u → HostEffect s u
  | cursor (k : Option OrderKey) : HostEffect s (setCursor k s)
  | activate : s.ctu.device = .standby ∨ s.ctu.device = .fallback →
      HostEffect s { s with ctu := { s.ctu with device := .active, timer := startedTimer s.ctu } }
  | stop : s.ctu.device = .active ∨ s.ctu.device = .fallback →
      HostEffect s (withdrawAll .stopped s.rlu.releaseList
        { s with ctu := { s.ctu with device := .standby, timer := none } })
  | keepalive : s.ctu.device = .active → s.ctu.window ≠ 0#16 →
      HostEffect s { s with ctu := { s.ctu with timer := startedTimer s.ctu } }
  | period (v : Half) : 1 ≤ v.toNat → v.toNat ≤ 1000 →
      HostEffect s { s with ctu := { s.ctu with tickPeriod := v } }
  | window (v : Half) : s.ctu.device ≠ .active → HostEffect s { s with ctu := { s.ctu with window := v } }
  | windowRestart (v : Half) : s.ctu.device = .active →
      HostEffect s { s with ctu := { s.ctu with
        window := v, timer := startedTimer { s.ctu with window := v } } }
  | limit (v : Byte) : v ≠ 0#8 → HostEffect s { s with ctu := { s.ctu with offerLimit := v } }
  | restart : HostEffect s (warmRestart s)
  | levels (v : Vector EventLevel 11) : HostEffect s { s with evu := { s.evu with levels := v } }
  | clear (set : Half) : HostEffect s { s with evu := s.evu.cleared set }
  | begin : s.edu.txn = .closed → HostEffect s { s with edu := { s.edu with txn := .opened, ops := [] } }
  | stage (op : Op) : s.edu.txn = .opened → s.edu.ops.length < Config.maxOps →
      HostEffect s { s with edu := { s.edu with ops := s.edu.ops ++ [op] } }
  | discard : s.edu.txn = .opened → HostEffect s { s with edu := { s.edu with txn := .closed, ops := [] } }
  | reject (r : CommitRecord) : s.edu.txn = .opened → HostEffect s { s with edu := { s.edu with result := r } }
  | accept (r : CommitRecord) : s.edu.txn = .opened → validate s = none →
      HostEffect s { s with edu := { s.edu with txn := .building, result := r } }

/-! ### The effects of all commands -/

/-- The device has left INIT, or some port is OPEN: in INIT no event but those of the reset family and of the
host port is taken (R139, R145, R164). -/
abbrev State.Awake (s : State) : Prop := s.ctu.device ≠ .init ∨ ∃ p, (s.port p).state = .opened

/-- The state after a command; the resets, the memory clear and the cutover are the effects of their own
commands alone. -/
inductive Effect (x : Instr) (s : State) : State → Prop
  | idle : Effect x s s
  | inner {t : State} : s.Awake → InnerEffect s t → Effect x s t
  | reset (cause : ResetCause) (hold low : Bool) : isResetCommand x = true →
      Effect x s (hardResetTo cause hold low s)
  | pins (hold low : Bool) : isResetCommand x = true → held s = true →
      Effect x s { s with ctu := { s.ctu with powerHold := hold, resetLow := low } }
  | memoryClear : x = .memoryClearComplete → s.ctu.device = .init → held s = false →
      Effect x s (raise .initDone
        { s with
          rtb := { s.rtb with slots := RouteTable.reset.slots }
          rlu := .reset
          qp  := s.qp.map (fun q => { q with inbound := [], outbound := [] })
          ctu := { s.ctu with device := .standby, now := 0#32, tickInProgress := s.ctu.tickPeriod } })
  | tick : s.ctu.device ≠ .init →
      Effect x s { s with ctu := { s.ctu with now := s.ctu.now + 1#32, tickInProgress := s.ctu.tickPeriod } }
  | supervision : s.ctu.device = .active → Effect x s (raise .fallbackEntered
      (withdrawAll .fallback (s.rlu.releaseList.filter (fun r => !ticketEssential s r))
        { s with ctu := { s.ctu with device := .fallback, timer := none } }))
  | cutoverFailed (n : Nat) : x = .cutover → s.edu.txn = .building → Effect x s (cutoverFailed n s)
  | cutoverDone : x = .cutover → s.edu.txn = .building → Effect x s (cutoverDone s)
  | overrun (p : PortNo) : (s.port p).state = .opened →
      Effect x s (raiseOverrun p (s.setPort p { s.port p with overrun := true }))
  | linkError (p : PortNo) (v : Receiver) : (s.port p).state = .opened →
      Effect x s (raiseLinkError p (s.setPort p { s.port p with receiver := v }))
  | spi (phase : SpiPhase) (miso : List Byte) :
      Effect x s { s with hpt := { s.hpt with phase := phase, miso := miso } }
  | answer (seq : Byte) (r : Reply) : Effect x s (closeSpi seq r s)
  | broken (seq : Byte) (r : Reply) : Effect x s (closeSpi seq r (raise .hostFrameError s))
  | host (seq : Byte) (r : Reply) (u : State) : s.ctu.device ≠ .init → HostEffect s u →
      Effect x s (closeSpi seq r u)

/-! ### Host commands -/

/-- The closing event of a complete frame: a failed test of R145, or what follows the tests. -/
theorem effect_closeFrame {x : Instr} {code : Byte} {f : HostFrame} {rest : State → State} {s : State}
    (h : ¬ (s.ctu.device = .init ∧ code ≠ hostCode .nop) → Effect x s (rest s)) :
    Effect x s (closeFrame code f rest s) := by
  unfold closeFrame
  split
  · exact .spi _ _
  · split
    · exact .broken _ _
    · split
      · exact .broken _ _
      · split
        · exact .answer _ _
        · rename_i taken; exact h taken

/-- The closing event of a host command other than NOP. -/
theorem effect_hostCommand {x : Instr} {c : HostCmd} {f : HostFrame} {run : State → State × Reply} {s : State}
    (nop : c ≠ .nop) (h : HostEffect s (run s).1) : Effect x s (hostCommand c f run s) := by
  refine effect_closeFrame (fun taken => ?_)
  split
  · exact .answer _ _
  · exact .host _ _ _ (fun init => taken ⟨init, fun e => nop (hostCode_injective _ _ e)⟩) h

/-- The closing event of a command whose run leaves the state. -/
theorem effect_report {x : Instr} {c : HostCmd} {f : HostFrame} {run : State → State × Reply} {s : State}
    (h : (run s).1 = s) : Effect x s (hostCommand c f run s) := by
  refine effect_closeFrame (fun _ => ?_)
  split
  · exact .answer _ _
  · rw [h]; exact .answer _ _

section
variable (params : List Byte) (s : State)

theorem effect_runStart : HostEffect s (runStart params s).1 := by
  unfold runStart
  split
  · rename_i h; exact .activate (.inl h)
  · exact .idle

theorem effect_runStop : HostEffect s (runStop params s).1 := by
  unfold runStop
  split
  · rename_i h; exact .stop h
  · exact .idle

theorem effect_runResume : HostEffect s (runResume params s).1 := by
  unfold runResume
  split
  · rename_i h; exact .activate (.inr h)
  · exact .idle

theorem effect_runKeepalive : HostEffect s (runKeepalive params s).1 := by
  unfold runKeepalive
  split
  · rename_i h; exact .keepalive h.1 h.2
  · exact .idle

theorem effect_runSetTimebase : HostEffect s (runSetTimebase params s).1 := by
  unfold runSetTimebase
  split
  · split
    · rename_i h; exact .period _ h.1 h.2
    · exact .idle
  · exact .idle

theorem effect_runSetSupervision : HostEffect s (runSetSupervision params s).1 := by
  unfold runSetSupervision
  extract_lets c
  split
  · rename_i h; exact .windowRestart _ h
  · rename_i h; exact .window _ h

theorem effect_runSetOfferLimit : HostEffect s (runSetOfferLimit params s).1 := by
  unfold runSetOfferLimit
  split
  · exact .idle
  · rename_i h; exact .limit _ h

theorem effect_runSetEventLevels : HostEffect s (runSetEventLevels params s).1 := by
  unfold runSetEventLevels
  split
  · exact .levels _
  · exact .idle

theorem effect_runClearEvents : HostEffect s (runClearEvents params s).1 := by
  unfold runClearEvents
  split
  · exact .clear _
  · exact .idle

theorem effect_runPortOpen : HostEffect s (runPortOpen params s).1 := by
  unfold runPortOpen
  split
  · exact .idle
  · rename_i p hp
    split
    · exact .idle
    · rename_i quota
      split
      · exact .idle
      · rename_i closed
        refine .inner (.openPort p _ (Nat.le_of_not_lt quota) ?_)
        cases h : (s.port p).state with
        | closed => rfl
        | opened => exact absurd h closed

theorem effect_runPortClose : HostEffect s (runPortClose params s).1 := by
  unfold runPortClose
  split
  · exact .idle
  · rename_i p hp
    split
    · exact .idle
    · rename_i opened
      refine .inner (.closePort p ?_)
      cases h : (s.port p).state with
      | opened => rfl
      | closed => exact absurd h opened

theorem effect_runBegin : HostEffect s (runBegin params s).1 := by
  unfold runBegin
  split
  · rename_i h; exact .begin h
  · exact .idle
  · exact .idle

theorem effect_stage (op : Op) : HostEffect s (stage op s).1 := by
  unfold stage
  split
  · rename_i h
    split
    · rename_i room; exact .stage op h room
    · exact .idle
  · exact .idle
  · exact .idle

theorem effect_runDiscard : HostEffect s (runDiscard params s).1 := by
  unfold runDiscard
  split
  · rename_i h; exact .discard h
  · exact .idle
  · exact .idle

theorem effect_runCommit : HostEffect s (runCommit params s).1 := by
  unfold runCommit
  split
  · rename_i h
    split
    · exact .reject _ h
    · rename_i accepted; exact .accept _ h accepted
  · exact .idle
  · exact .idle

theorem effect_runWalkFirst : HostEffect s (runWalkFirst params s).1 := by
  unfold runWalkFirst
  split
  · exact .cursor _
  · exact .cursor _

theorem effect_runWalkNext : HostEffect s (runWalkNext params s).1 := by
  unfold runWalkNext
  split
  · exact .idle
  · split
    · exact .cursor _
    · exact .idle

theorem effect_runCollect : HostEffect s (runCollect params s).1 := by
  unfold runCollect
  split
  · exact .idle
  · split
    · rename_i h; exact .inner (.collect _ h)
    · exact .idle

theorem runListRetired_state : (runListRetired params s).1 = s := by
  unfold runListRetired; split
  · rfl
  · split <;> rfl

theorem runReadEntry_state : (runReadEntry params s).1 = s := by unfold runReadEntry; split <;> rfl
theorem runReadPort_state : (runReadPort params s).1 = s := by unfold runReadPort; split <;> rfl
theorem runReadTicket_state : (runReadTicket params s).1 = s := by unfold runReadTicket; split <;> rfl
theorem runProbe_state : (runProbe params s).1 = s := by unfold runProbe; split <;> rfl

end

/-! ### Links and timers -/

theorem readyHead_ready {s : State} {p : PortNo} {m : InMsg} (h : s.readyHead p = some m) :
    (s.port p).ready = true := by
  unfold State.readyHead at h
  split at h
  · assumption
  · cases h

/-- A ready port is OPEN with fewer than 8 answers (R26, R129). -/
theorem Port.ready_iff (q : Port) : q.ready = true ↔ q.state = .opened ∧ q.answers < 8 := by
  rw [Port.ready, Bool.and_eq_true, beq_iff_eq, decide_eq_true_iff]
  rfl

theorem awake_of_ready {s : State} {p : PortNo} (h : (s.port p).ready = true) : s.Awake :=
  .inr ⟨p, ((Port.ready_iff _).1 h).1⟩

theorem granted_eligible {s : State} {p : PortNo} (h : granted s = some p) : eligible s p = true :=
  ((find_searchOrder _ _).1 h).1

section
variable {s t : State} {x : Instr}

theorem effect_powerOnHoldEnd (h : execPowerOnHoldEnd s = .next t) : Effect .powerOnHoldEnd s t := by
  unfold execPowerOnHoldEnd at h
  split at h
  · rename_i hold
    split at h <;> obtain rfl := Host.Outcome.next.inj h
    · exact .pins false s.ctu.resetLow rfl (by simp [held, hold])
    · exact .reset _ _ _ rfl
  · obtain rfl := Host.Outcome.next.inj h; exact .idle

theorem effect_hardReset (h : execHardReset s = .next t) : Effect .hardReset s t := by
  unfold execHardReset at h
  split at h
  · obtain rfl := Host.Outcome.next.inj h; exact .idle
  · split at h <;> obtain rfl := Host.Outcome.next.inj h
    · rename_i hold
      exact .pins s.ctu.powerHold true rfl (by simp [held, hold])
    · exact .reset _ _ _ rfl

theorem effect_resetRelease (h : execResetRelease s = .next t) : Effect .resetRelease s t := by
  unfold execResetRelease at h
  split at h
  · rename_i low
    split at h <;> obtain rfl := Host.Outcome.next.inj h
    · exact .pins s.ctu.powerHold false rfl (by simp [held, low])
    · exact .reset _ _ _ rfl
  · obtain rfl := Host.Outcome.next.inj h; exact .idle

theorem effect_memoryClear (h : execMemoryClearComplete s = .next t) : Effect .memoryClearComplete s t := by
  unfold execMemoryClearComplete at h
  split at h <;> obtain rfl := Host.Outcome.next.inj h
  · rename_i g; exact .memoryClear rfl g.1 g.2
  · exact .idle

theorem effect_tick (h : execTimebaseTick s = .next t) : Effect x s t := by
  unfold execTimebaseTick at h
  split at h <;> obtain rfl := Host.Outcome.next.inj h
  · exact .idle
  · rename_i g; exact .tick g

theorem effect_deadlineExpiry {i : SlotNo} (h : execDeadlineExpiry i s = .next t) : Effect x s t := by
  unfold execDeadlineExpiry at h
  split at h <;> obtain rfl := Host.Outcome.next.inj h
  · rename_i g; exact .inner (.inl g.1) (.expire i)
  · exact .idle

theorem effect_dueExpiry (h : execDueExpiry s = .next t) : Effect x s t := by
  unfold execDueExpiry at h
  split at h
  · rename_i device
    split at h
    · split at h
      · rename_i g
        split at h <;> obtain rfl := Host.Outcome.next.inj h
        · have awake : s.ctu.device ≠ .init := by
            rcases device with e | e <;> rw [e] <;> decide
          exact .inner (.inl awake) (.due _ _ device g)
        · exact .idle
      · obtain rfl := Host.Outcome.next.inj h; exact .idle
    · obtain rfl := Host.Outcome.next.inj h; exact .idle
  · obtain rfl := Host.Outcome.next.inj h; exact .idle

theorem effect_offerTimeout {r : RecNo} (h : execOfferTimeout r s = .next t) : Effect x s t := by
  unfold execOfferTimeout at h
  split at h <;> obtain rfl := Host.Outcome.next.inj h
  · rename_i g; exact .inner (.inl g.1) (.timeout r)
  · exact .idle

theorem effect_windowOpens {i : SlotNo} (h : execWindowOpens i s = .next t) : Effect x s t := by
  unfold execWindowOpens at h
  split at h
  · rename_i l live
    split at h <;> obtain rfl := Host.Outcome.next.inj h
    · rename_i g; exact .inner (.inl g.2.2) (.openWindow i l live)
    · exact .idle
  · obtain rfl := Host.Outcome.next.inj h; exact .idle

theorem effect_supervisionExpiry (h : execSupervisionExpiry s = .next t) : Effect x s t := by
  unfold execSupervisionExpiry at h
  split at h
  · split at h <;> obtain rfl := Host.Outcome.next.inj h
    · rename_i g; exact .supervision g.2
    · exact .idle
  · obtain rfl := Host.Outcome.next.inj h; exact .idle

theorem effect_cutover (h : execCutover s = .next t) : Effect .cutover s t := by
  unfold execCutover at h
  split at h
  · rename_i building
    split at h <;> obtain rfl := Host.Outcome.next.inj h
    · exact .cutoverFailed _ rfl building
    · exact .cutoverDone rfl building
  all_goals obtain rfl := Host.Outcome.next.inj h; exact .idle

theorem effect_arrive {p : PortNo} {m : InMsg} (opened : (s.port p).state = .opened) :
    Effect x s (arrive p m s) := by
  unfold arrive
  split
  · rename_i room; exact .inner (.inr ⟨p, opened⟩) (.queue p m opened room)
  · exact .overrun p opened

theorem effect_frameArrival {p : PortNo} {content : LinkContent}
    (h : execFrameArrival p content s = .next t) : Effect x s t := by
  unfold execFrameArrival at h
  split at h
  · obtain rfl := Host.Outcome.next.inj h; exact .idle
  · rename_i opened
    split at h
    · obtain rfl := Host.Outcome.next.inj h; exact .inner (.inr ⟨p, opened⟩) (.receiver p _ opened)
    · split at h
      · obtain rfl := Host.Outcome.next.inj h; exact .idle
      · split at h <;> obtain rfl := Host.Outcome.next.inj h
        · exact effect_arrive opened
        · have same : s.setPort p { s.port p with receiver := (s.port p).receiver } = s :=
            State.setPort_port s p
          have := Effect.linkError (x := x) p (s.port p).receiver opened
          rwa [same] at this

theorem effect_badEscape {p : PortNo} {b : Byte} (h : execBadEscape p b s = .next t) : Effect x s t := by
  unfold execBadEscape at h
  split at h <;> obtain rfl := Host.Outcome.next.inj h
  · rename_i g; exact .linkError p _ g.1
  · exact .idle

theorem effect_huntDelimiter {p : PortNo} (h : execHuntDelimiter p s = .next t) : Effect x s t := by
  unfold execHuntDelimiter at h
  split at h <;> obtain rfl := Host.Outcome.next.inj h
  · rename_i g; exact .inner (.inr ⟨p, g.1⟩) (.receiver p _ g.1)
  · exact .idle

theorem effect_lookupEvent (h : execLookupEvent s = .next t) : Effect x s t := by
  unfold execLookupEvent at h
  split at h
  · rename_i p g
    have ready : (s.port p).ready = true := by
      have := granted_eligible g
      simp only [eligible, Bool.and_eq_true] at this
      exact this.1
    split at h <;> obtain rfl := Host.Outcome.next.inj h
    · exact .inner (awake_of_ready ready) (.lookup ⟨p, _, _, _⟩ _ ready)
    · exact .idle
  · obtain rfl := Host.Outcome.next.inj h; exact .idle

theorem effect_ack {p : PortNo} (h : execAck p s = .next t) : Effect x s t := by
  unfold execAck at h
  split at h <;> obtain rfl := Host.Outcome.next.inj h
  · rename_i g; exact .inner (awake_of_ready (readyHead_ready g)) (.ack p _ (readyHead_ready g))
  · exact .idle

theorem effect_cancel {p : PortNo} (h : execCancel p s = .next t) : Effect x s t := by
  unfold execCancel at h
  split at h <;> obtain rfl := Host.Outcome.next.inj h
  · rename_i g; exact .inner (awake_of_ready (readyHead_ready g)) (.cancel p _ (readyHead_ready g))
  · exact .idle

theorem effect_ping {p : PortNo} (h : execPing p s = .next t) : Effect x s t := by
  unfold execPing at h
  split at h <;> obtain rfl := Host.Outcome.next.inj h
  · rename_i g; exact .inner (awake_of_ready (readyHead_ready g)) (.pong p _ (readyHead_ready g))
  · exact .idle

theorem effect_leavingTheLink {p : PortNo} (h : execLeavingTheLink p s = .next t) : Effect x s t := by
  unfold execLeavingTheLink at h
  split at h
  · rename_i opened out
    dsimp only at h
    split at h <;> obtain rfl := Host.Outcome.next.inj h
    · exact .inner (.inr ⟨p, opened⟩) (.leaveRelease p _ _ _ _ opened out)
    · exact .inner (.inr ⟨p, opened⟩) (.leave p _ _ _ opened out)
  · obtain rfl := Host.Outcome.next.inj h; exact .idle

theorem effect_spiTransactionOpen (h : execSpiTransactionOpen s = .next t) : Effect x s t := by
  unfold execSpiTransactionOpen at h
  split at h
  · split at h <;> obtain rfl := Host.Outcome.next.inj h <;> exact .spi _ _
  all_goals obtain rfl := Host.Outcome.next.inj h; exact .idle

theorem effect_frameError {mosi : List Byte} (h : execFrameError mosi s = .next t) : Effect x s t := by
  unfold execFrameError at h
  split at h
  · obtain rfl := Host.Outcome.next.inj h; exact .spi _ _
  · split at h <;> obtain rfl := Host.Outcome.next.inj h
    · exact .idle
    · exact .broken _ _

theorem effect_badCommand {code : Byte} {f : HostFrame} (h : execBadCommand code f s = .next t) :
    Effect x s t := by
  unfold execBadCommand at h
  split at h <;> obtain rfl := Host.Outcome.next.inj h
  · exact .idle
  · exact effect_closeFrame (fun _ => .answer _ _)

/-- The effect of a host command, by its row. -/
theorem effect_of_host {c : HostCmd} {f : HostFrame} {run : State → State × Reply} (nop : c ≠ .nop)
    (h : Host.Outcome.next (hostCommand c f run s) = (.next t : Result)) (e : HostEffect s (run s).1) :
    Effect x s t := by
  obtain rfl := Host.Outcome.next.inj h
  exact effect_hostCommand nop e

theorem effect_of_report {c : HostCmd} {f : HostFrame} {run : State → State × Reply}
    (h : Host.Outcome.next (hostCommand c f run s) = (.next t : Result)) (e : (run s).1 = s) :
    Effect x s t := by
  obtain rfl := Host.Outcome.next.inj h
  exact effect_report e

/-- What a command can do. -/
theorem exec_effect {c : Instr} (h : exec c s = .next t) : Effect c s t := by
  cases c with
  | powerOn low => obtain rfl := Host.Outcome.next.inj h; exact .reset _ _ _ rfl
  | powerOnHoldEnd => exact effect_powerOnHoldEnd h
  | hardReset => exact effect_hardReset h
  | resetRelease => exact effect_resetRelease h
  | memoryClearComplete => exact effect_memoryClear h
  | timebaseTick => exact effect_tick h
  | deadlineExpiry i => exact effect_deadlineExpiry h
  | dueExpiry => exact effect_dueExpiry h
  | offerTimeout r => exact effect_offerTimeout h
  | windowOpens i => exact effect_windowOpens h
  | supervisionExpiry => exact effect_supervisionExpiry h
  | cutover => exact effect_cutover h
  | frameArrival p content => exact effect_frameArrival h
  | badEscape p b => exact effect_badEscape h
  | lookupEvent => exact effect_lookupEvent h
  | ack p => exact effect_ack h
  | cancel p => exact effect_cancel h
  | ping p => exact effect_ping h
  | leavingTheLink p => exact effect_leavingTheLink h
  | spiTransactionOpen => exact effect_spiTransactionOpen h
  | frameError mosi => exact effect_frameError h
  | badCommand code f => exact effect_badCommand h
  | nop f => exact effect_of_report h rfl
  | identify f => exact effect_of_report h rfl
  | tableSummary f => exact effect_of_report h rfl
  | start f => exact effect_of_host (by decide) h (effect_runStart _ _)
  | stop f => exact effect_of_host (by decide) h (effect_runStop _ _)
  | resume f => exact effect_of_host (by decide) h (effect_runResume _ _)
  | keepalive f => exact effect_of_host (by decide) h (effect_runKeepalive _ _)
  | warmRestart f => exact effect_of_host (by decide) h .restart
  | setTimebase f => exact effect_of_host (by decide) h (effect_runSetTimebase _ _)
  | setSupervision f => exact effect_of_host (by decide) h (effect_runSetSupervision _ _)
  | setOfferLimit f => exact effect_of_host (by decide) h (effect_runSetOfferLimit _ _)
  | setEventLevels f => exact effect_of_host (by decide) h (effect_runSetEventLevels _ _)
  | readEvents f => exact effect_of_report h rfl
  | clearEvents f => exact effect_of_host (by decide) h (effect_runClearEvents _ _)
  | portOpen f => exact effect_of_host (by decide) h (effect_runPortOpen _ _)
  | portClose f => exact effect_of_host (by decide) h (effect_runPortClose _ _)
  | readPort f => exact effect_of_report h (runReadPort_state _ _)
  | begin f => exact effect_of_host (by decide) h (effect_runBegin _ _)
  | stageInsert f => exact effect_of_host (by decide) h (effect_stage _ _)
  | stageRemove f => exact effect_of_host (by decide) h (effect_stage _ _)
  | stageAmend f => exact effect_of_host (by decide) h (effect_stage _ _)
  | stageRenew f => exact effect_of_host (by decide) h (effect_stage _ _)
  | commit f => exact effect_of_host (by decide) h (effect_runCommit _ _)
  | discard f => exact effect_of_host (by decide) h (effect_runDiscard _ _)
  | commitResult f => exact effect_of_report h rfl
  | readEntry f => exact effect_of_report h (runReadEntry_state _ _)
  | walkFirst f => exact effect_of_host (by decide) h (effect_runWalkFirst _ _)
  | walkNext f => exact effect_of_host (by decide) h (effect_runWalkNext _ _)
  | listRetired f => exact effect_of_report h (runListRetired_state _ _)
  | collect f => exact effect_of_host (by decide) h (effect_runCollect _ _)
  | probe f => exact effect_of_report h (runProbe_state _ _)
  | readTicket f => exact effect_of_report h (runReadTicket_state _ _)
  | huntDelimiter p => exact effect_huntDelimiter h

end

end Sys2Proof.Machine
end

section
/-!
What every command keeps of the table: eras, the generation, serials and criteria.
-/

namespace Sys2Proof.Machine

/-! ### The table under every command but a reset, the memory clear and a cutover -/

/-- The counters of the table stand and every slot evolves. -/
structure TableEvolves (s t : State) : Prop where
  counters : CountersKept s t
  slots    : ∀ i, (s.slot i).Evolves (t.slot i)

theorem TableEvolves.of_eq {s t : State} (h : t.rtb = s.rtb) : TableEvolves s t := by
  constructor
  · simp [CountersKept, h]
  · intro i
    rw [show t.slot i = s.slot i by simp [State.slot, h]]
    exact .refl _

theorem Inner.table {s t : State} (h : Inner s t) : TableEvolves s t := ⟨h.rest.1, h.slots⟩

theorem Slot.evolves_restarted (now : Tick) (sl : Slot) : sl.Evolves (sl.restarted now) := by
  obtain ⟨era, body⟩ := sl
  cases body with
  | free => exact .refl _
  | live l => exact evolves_live (m := { l.openAt now with ticket := none }) rfl rfl id
  | retiring e c k => exact evolves_finished c rfl
  | retired e c => exact .refl _

@[simp] theorem warmRestart_slot (s : State) (i : SlotNo) :
    (warmRestart s).slot i = (s.slot i).restarted s.ctu.now := by
  simp [State.slot, warmRestart]

/-- The release unit, the ports and the answer of a LOOKUP are no part of the table. -/
theorem inner_answerLookup (q : Query) (tag : Byte) (s : State) : Inner s (answerLookup q tag s) := by
  unfold answerLookup
  split
  · exact inner_place s _ _
  · split
    · split
      · rename_i i l found
        have live := (List.mem_filter.1 (leastKey_mem found)).1
        exact inner_applyVerdict (mem_liveEntries.1 live) _
      · exact inner_place s _ _
    · exact inner_place s _ _

theorem inner_takeAck (p : PortNo) (id : Half) (s : State) : Inner s (takeAck p id s) := by
  unfold takeAck
  split
  · exact inner_place s _ _
  · split
    · split
      · exact inner_completeTicket s _
      all_goals exact inner_place s _ _
    · exact inner_place s _ _

theorem inner_takeCancel (p : PortNo) (id : Half) (s : State) : Inner s (takeCancel p id s) := by
  unfold takeCancel
  split
  · exact inner_place s _ _
  · split
    · split
      · exact (inner_completeTicket s _).trans (inner_place _ _ _)
      · exact (inner_releaseUnit s _).trans (inner_place _ _ _)
      · exact inner_place s _ _
    · exact inner_place s _ _

theorem inner_markSent (k : TicketId) (s : State) : Inner s (markSent k s) := by
  unfold markSent
  split
  · split
    · exact inner_releaseUnit s _
    · exact .refl s
  · exact .refl s

theorem inner_closePort (p : PortNo) (s : State) : Inner s (closePort p (completeAll (recordsOwned s p) s)) :=
  (inner_completeAll _ s).trans (inner_setPort _ p _)

/-- Withdrawals after a change of the control unit. -/
theorem table_withdrawAll (reason : WithdrawReason) (rs : List RecNo) (c : ControlUnit) (s : State) :
    TableEvolves s (withdrawAll reason rs { s with ctu := c }) :=
  have g := inner_withdrawAll reason rs { s with ctu := c }
  ⟨g.rest.1, g.slots⟩

theorem InnerEffect.inner {s t : State} (h : InnerEffect s t) : Inner s t := by
  cases h with
  | expire i => exact (inner_retire s _ i).trans (inner_raise _ (k := .entryExpired) (by decide) (by decide))
  | due r h => exact inner_fallDue s r h
  | timeout r =>
    exact (inner_completeTicket s r).trans (inner_raise _ (k := .offerTimeout) (by decide) (by decide))
  | openWindow i l live => exact inner_setLive s (m := { l with window := .opened }) live rfl rfl id
  | queue p m => exact inner_setPort s p _
  | receiver p v => exact inner_setPort s p _
  | lookup q tag =>
    exact ((inner_pointer s _).trans (inner_popInbound _ _)).trans (inner_answerLookup _ _ _)
  | ack p id => exact (inner_popInbound s p).trans (inner_takeAck p id _)
  | cancel p id => exact (inner_popInbound s p).trans (inner_takeCancel p id _)
  | pong p tag => exact (inner_popInbound s p).trans (inner_place _ _ _)
  | leave p m rest line => exact inner_setPort s p _
  | leaveRelease p m rest line k => exact (inner_setPort s p _).trans (inner_markSent k _)
  | openPort p quota => exact inner_setPort s p _
  | closePort p => exact inner_closePort p s
  | collect i retired =>
    have notFree : (s.slot i).body.isFree = false := by
      cases hb : (s.slot i).body <;> simp_all [SlotBody.isRetired, SlotBody.isFree]
    exact inner_setSlot s (Slot.evolves_free notFree)

theorem HostEffect.table {s u : State} (h : HostEffect s u) : TableEvolves s u := by
  cases h with
  | inner h => exact h.inner.table
  | stop => exact table_withdrawAll _ _ _ s
  | restart => exact ⟨⟨rfl, rfl, rfl⟩, fun i => by rw [warmRestart_slot]; exact Slot.evolves_restarted _ _⟩
  | _ => exact .of_eq rfl

/-- The table after a command: it evolves, or it was reset or cleared, or a cutover applied its ops. -/
theorem Effect.table {x : Instr} {s t : State} (h : Effect x s t) : TableEvolves s t ∨
    (isResetCommand x = true ∧ t.rtb = .reset) ∨
    (x = .memoryClearComplete ∧ CountersKept s t ∧ t.rtb.slots = RouteTable.reset.slots) ∨
    (x = .cutover ∧ s.edu.txn = .building ∧ t = Machine.cutoverDone s) := by
  cases h with
  | inner _ h => exact .inl h.inner.table
  | reset cause hold low command => exact .inr (.inl ⟨command, rfl⟩)
  | memoryClear command => exact .inr (.inr (.inl ⟨command, ⟨rfl, rfl, rfl⟩, rfl⟩))
  | cutoverDone command building => exact .inr (.inr (.inr ⟨command, building, rfl⟩))
  | supervision =>
    have g := table_withdrawAll .fallback (s.rlu.releaseList.filter (fun r => !ticketEssential s r))
      { s.ctu with device := .fallback, timer := none } s
    exact .inl ⟨g.counters, g.slots⟩
  | host seq r u _ e => exact .inl ⟨e.table.counters, e.table.slots⟩
  | _ => exact .inl (.of_eq rfl)

/-- Settles O60: the table evolves in the events that the statement names, and every slot with it. -/
theorem eraCountsEntriesIntoFree : Obligations.EraCountsEntriesIntoFree := by
  intro c s t i step notCutover notClear notReset
  rcases (exec_effect step).table with h | ⟨h, -⟩ | ⟨h, -⟩ | ⟨h, -⟩
  · exact ⟨(h.slots i).free, (h.slots i).era⟩
  · rw [notReset] at h; cases h
  · exact absurd h notClear
  · exact absurd h notCutover

/-! ### Ops at cutover -/

/-- What no op at cutover reaches. -/
abbrev OpFrame (s t : State) : Prop :=
  t.rtb.generation = s.rtb.generation ∧ t.edu = s.edu ∧ t.hpt = s.hpt ∧ t.ctu = s.ctu ∧ t.evu = s.evu ∧
    t.pointer = s.pointer ∧ t.pending = s.pending

theorem OpFrame.trans {s t u : State} (f : OpFrame s t) (g : OpFrame t u) : OpFrame s u := by
  obtain ⟨f1, f2, f3, f4, f5, f6, f7⟩ := f
  obtain ⟨g1, g2, g3, g4, g5, g6, g7⟩ := g
  exact ⟨g1.trans f1, g2.trans f2, g3.trans f3, g4.trans f4, g5.trans f5, g6.trans f6, g7.trans f7⟩

theorem OpFrame.refl (s : State) : OpFrame s s := ⟨rfl, rfl, rfl, rfl, rfl, rfl, rfl⟩

theorem withdrawOf_frame (reason : WithdrawReason) (i : SlotNo) (s : State) :
    OpFrame s (withdrawOf reason i s) := by
  unfold withdrawOf
  split
  · obtain ⟨evu, pointer, queue, ⟨generation, -⟩, edu, hpt, ctu⟩ := withdraw_frame reason _ s
    exact ⟨generation, edu, hpt, ctu, evu, pointer, queue⟩
  · exact .refl s

theorem retire_frame (c : RetireCause) (i : SlotNo) (s : State) : OpFrame s (retire c i s) := by
  obtain ⟨u, hu, h⟩ := retire_cases c i s
  have first : OpFrame s u := by
    rcases hu with rfl | ⟨-, reason, rfl⟩
    · exact .refl _
    · exact withdrawOf_frame reason i s
  rcases h with ⟨l, k, -, -, e⟩ | ⟨l, -, -, e⟩ | ⟨-, e⟩ <;> rw [e] <;> exact first

/-- The retirement procedure leaves no LIVE entry in its slot (R80). -/
theorem retire_notLive (c : RetireCause) (i : SlotNo) (s : State) :
    ((retire c i s).slot i).body.isLive = false := by
  obtain ⟨u, -, h⟩ := retire_cases c i s
  rcases h with ⟨l, k, -, -, e⟩ | ⟨l, -, -, e⟩ | ⟨h, e⟩ <;> rw [e]
  · simp [SlotBody.isLive]
  · simp only [State.slot_setSlot, if_true, finishedSlot]
    split <;> rfl
  · exact h

/-- An amendment changes the slot of its entry after the withdrawal of its ticket (R112). -/
theorem applyAmend_cases (i : SlotNo) (a : Action) (s : State) :
    (∃ l, ((withdrawOf .amended i s).slot i).body = .live l ∧ applyAmend i a s
      = (withdrawOf .amended i s).setBody i (.live (l.amended s.ctu.now a))) ∨
    applyAmend i a s = withdrawOf .amended i s := by
  unfold applyAmend
  extract_lets u
  split
  · rename_i l h; exact .inl ⟨l, h, rfl⟩
  · exact .inr rfl

theorem applyOp_frame (op : Op) (s : State) : OpFrame s (applyOp op s).1 := by
  unfold applyOp
  split
  · unfold applyInsert RouteTable.takeSerial
    split
    · dsimp only; split <;> exact .refl s
    · exact .refl s
  · split
    · exact retire_frame _ _ s
    · exact .refl s
  · split
    · rename_i i _
      rcases applyAmend_cases i _ s with ⟨l, -, e⟩ | e <;> rw [e] <;> exact withdrawOf_frame _ i s
    · exact .refl s
  · split
    · unfold applyRenew; split <;> exact .refl s
    · exact .refl s

theorem applyOps_frame : ∀ (ops : List Op) (s : State), OpFrame s (applyOps ops s).1
  | [], s => .refl s
  | op :: rest, s => (applyOp_frame op s).trans (applyOps_frame rest (applyOp op s).1)

/-- Settles O59: no other effect reaches the generation. -/
theorem generationCountsCutovers : Obligations.GenerationCountsCutovers := by
  intro c s t step changed
  rcases (exec_effect step).table with h | ⟨h, e⟩ | ⟨h, k, -⟩ | ⟨rfl, building, rfl⟩
  · exact absurd h.counters.1 changed
  · exact .inr ⟨h, by rw [e]; rfl⟩
  · exact absurd k.1 changed
  · refine .inl ⟨rfl, building, rfl, ?_⟩
    show (applyOps s.edu.ops s).1.rtb.generation + 1#16 = _
    rw [(applyOps_frame s.edu.ops s).1]

/-! ### Entries that are not new -/

/-- Every entry, and every LIVE entry, is one the slot held before, under its serial and its criteria. -/
structure NoneNew (s t : State) : Prop where
  entry : ∀ i e', (t.slot i).body.entry? = some e' → ∃ e, (s.slot i).body.entry? = some e ∧
    e'.serial = e.serial
  live  : ∀ i m, (t.slot i).body = .live m → ∃ l, (s.slot i).body = .live l ∧
    (t.slot i).era = (s.slot i).era ∧ m.entry.serial = l.entry.serial ∧
    m.entry.definition.criteria = l.entry.definition.criteria

theorem NoneNew.of_evolves {s t : State} (h : ∀ i, (s.slot i).Evolves (t.slot i)) : NoneNew s t where
  entry i e' he := by
    obtain ⟨e, h1, -, h2⟩ := (h i).entry e' he
    exact ⟨e, h1, h2⟩
  live i m hm := by
    obtain ⟨l, hl, -⟩ := (h i).live m hm
    obtain ⟨e, he, d, n⟩ := (h i).entry m.entry (by rw [hm]; rfl)
    obtain rfl : l.entry = e := by simpa [hl, SlotBody.entry?] using he
    refine ⟨l, hl, ?_, n, by rw [d]⟩
    have := (h i).era
    simpa [hm, SlotBody.isFree] using this

theorem NoneNew.refl (s : State) : NoneNew s s := .of_evolves (fun _ => .refl _)

theorem NoneNew.of_eq {s t : State} (h : t.rtb.slots = s.rtb.slots) : NoneNew s t :=
  .of_evolves (fun i => by
    rw [show t.slot i = s.slot i by simp [State.slot, h]]
    exact .refl _)

theorem NoneNew.trans {s t u : State} (f : NoneNew s t) (g : NoneNew t u) : NoneNew s u where
  entry i e he := by
    obtain ⟨e1, h1, n1⟩ := g.entry i e he
    obtain ⟨e2, h2, n2⟩ := f.entry i e1 h1
    exact ⟨e2, h2, n1.trans n2⟩
  live i m hm := by
    obtain ⟨l1, h1, era1, n1, c1⟩ := g.live i m hm
    obtain ⟨l2, h2, era2, n2, c2⟩ := f.live i l1 h1
    exact ⟨l2, h2, era1.trans era2, n1.trans n2, c1.trans c2⟩

/-- An amendment keeps the identity of its entry: its serial and its criteria (R112). -/
theorem noneNew_applyAmend (i : SlotNo) (a : Action) (s : State) : NoneNew s (applyAmend i a s) := by
  have first : NoneNew s (withdrawOf .amended i s) := .of_evolves (inner_withdrawOf s _ i).slots
  rcases applyAmend_cases i a s with ⟨l, hl, e⟩ | e <;> rw [e]
  · refine first.trans ?_
    have same : (l.amended s.ctu.now a).entry.serial = l.entry.serial ∧
        (l.amended s.ctu.now a).entry.definition.criteria = l.entry.definition.criteria := by
      unfold LiveEntry.amended; dsimp only; split <;> exact ⟨rfl, rfl⟩
    constructor
    · intro j e' he
      by_cases hj : i = j
      · subst hj
        obtain rfl : (l.amended s.ctu.now a).entry = e' := by simpa [SlotBody.entry?] using he
        exact ⟨l.entry, by rw [hl]; rfl, same.1⟩
      · exact ⟨e', by simpa [hj] using he, rfl⟩
    · intro j m hm
      by_cases hj : i = j
      · subst hj
        obtain rfl : l.amended s.ctu.now a = m := by simpa using hm
        exact ⟨l, hl, by simp, same⟩
      · exact ⟨m, by simpa [hj] using hm, by simp [hj], rfl, rfl⟩
  · exact first

theorem inner_applyRenew (i : SlotNo) (s : State) : Inner s (applyRenew i s) := by
  unfold applyRenew
  split
  · rename_i l h
    refine inner_setLive s h rfl rfl (fun _ => ?_)
    unfold LiveEntry.Timed Action.deadlineFrom
    cases hk : l.entry.action.lifetimeKind <;> simp
  · exact .refl s

theorem applyOp_remove_some {s : State} {w : Half} {i : SlotNo} (h : s.namedLive w = some i) :
    applyOp (.remove w) s = (retire .removed i s, []) := by
  simp only [applyOp, h]

theorem applyOp_amend_some {s : State} {w : Half} {i : SlotNo} (h : s.namedLive w = some i)
    (image : List Byte) : applyOp (.amend w image) s = (applyAmend i (.ofImage image) s, []) := by
  simp only [applyOp, h]

theorem applyOp_renew_some {s : State} {w : Half} {i : SlotNo} (h : s.namedLive w = some i) :
    applyOp (.renew w) s = (applyRenew i s, []) := by
  simp only [applyOp, h]

/-- An op whose target names no LIVE entry applies nothing. -/
theorem applyOp_gone {s : State} {op : Op} {w : Half} (t : op.target = some w) (h : s.namedLive w = none) :
    applyOp op s = (s, []) := by
  cases op <;> simp_all [applyOp, Op.target]

/-- An op that is no INSERT brings no entry, and leaves the serial counter. -/
theorem noneNew_applyOp {op : Op} {w : Half} (s : State) (target : op.target = some w) :
    NoneNew s (applyOp op s).1 ∧ CountersKept s (applyOp op s).1 := by
  have keep : ∀ {t : State}, Inner s t → NoneNew s t ∧ CountersKept s t :=
    fun g => ⟨.of_evolves g.slots, g.rest.1⟩
  cases named : s.namedLive w with
  | none => rw [applyOp_gone target named]; exact keep (.refl s)
  | some i =>
    cases op with
    | insert image => cases target
    | remove v =>
      obtain rfl := Option.some.inj target
      rw [applyOp_remove_some named]
      exact keep (t := retire .removed i s) (inner_retire s .removed i)
    | amend v image =>
      obtain rfl := Option.some.inj target
      rw [applyOp_amend_some named]
      refine ⟨noneNew_applyAmend i _ s, ?_⟩
      have first := (inner_withdrawOf s .amended i).rest.1
      rcases applyAmend_cases i (.ofImage image) s with ⟨l, -, e⟩ | e <;> rw [e] <;> exact first
    | renew v =>
      obtain rfl := Option.some.inj target
      rw [applyOp_renew_some named]
      exact keep (inner_applyRenew i s)

theorem lowestFree_isFree {s : State} {i : SlotNo} (h : lowestFree s = some i) : (s.slot i).body = .free := by
  rw [lowestFree_eq] at h
  have := List.find?_some h
  cases hb : (s.slot i).body <;> simp_all [SlotBody.isFree]

/-- The state after an INSERT that finds a FREE slot (R110). -/
theorem applyInsert_some {s : State} {i : SlotNo} (h : lowestFree s = some i) (image : List Byte) :
    (applyInsert image s).1
      = { s.setBody i (.live (newEntry s (.ofImage image))) with
          rtb := (s.setBody i (.live (newEntry s (.ofImage image)))).rtb.takeSerial } := by
  unfold applyInsert; rw [h]

theorem applyInsert_none {s : State} (h : lowestFree s = none) (image : List Byte) :
    (applyInsert image s).1 = s := by
  unfold applyInsert; rw [h]

/-- The serial counter after an INSERT (R18). -/
theorem takeSerial_eq (t : RouteTable) : t.takeSerial = { t with
    nextSerial := if t.nextSerial.toNat = 4294967295 then t.nextSerial else t.nextSerial + 1#32
    exhausted := t.exhausted || t.nextSerial.toNat == 4294967295 } := by
  have last : t.nextSerial = 0xFFFFFFFF#32 ↔ t.nextSerial.toNat = 4294967295 := BitVec.toNat_eq
  unfold RouteTable.takeSerial
  by_cases h : t.nextSerial.toNat = 4294967295
  · rw [if_pos (last.2 h), if_pos h, h]; simp
  · rw [if_neg (fun e => h (last.1 e)), if_neg h, beq_eq_false_iff_ne.2 h, Bool.or_false]

/-- The slots after an INSERT that finds a FREE slot (R110). -/
theorem applyInsert_slot {s : State} {i : SlotNo} (h : lowestFree s = some i) (image : List Byte) (j : SlotNo) :
    (applyInsert image s).1.slot j
      = if i = j then ⟨(s.slot i).era, .live (newEntry s (.ofImage image))⟩ else s.slot j := by
  rw [applyInsert_some h, ← State.slot_setBody]
  simp only [State.slot, takeSerial_eq]

/-! ### Validation and the staged INSERTs -/

theorem validateFrom_cons_none {s : State} {n : Nat} {run : Running} {op : Op} {rest : List Op}
    (h : validateFrom s n run (op :: rest) = none) :
    validateOp s run op = none ∧ validateFrom s (n + 1) (run.after s op) rest = none := by
  rw [validateFrom] at h
  split at h
  · cases h
  · rename_i h'; exact ⟨h', h⟩

/-- An INSERT that passes its tests: its image fails no field, its criteria are new, and there are a FREE slot
and a serial for it and the INSERTs before it (R101 to R105). -/
theorem validateInsert_none {s : State} {run : Running} {image : List Byte}
    (h : validateInsert s run image = none) :
    definitionFailure image = none ∧ isDuplicate s run (Definition.ofImage image).criteria = false ∧
      run.inserts + 1 ≤ freeCount s ∧ s.rtb.exhausted = false ∧
      s.rtb.nextSerial.toNat + run.inserts < 2 ^ 32 := by
  unfold validateInsert at h
  split at h
  · cases h
  · rename_i fields
    split at h
    · cases h
    · rename_i fresh
      split at h
      · cases h
      · rename_i slots
        split at h
        · cases h
        · rename_i serials
          rw [not_or] at serials
          exact ⟨fields, by simpa using fresh, Nat.le_of_not_lt slots, by simpa using serials.1,
            Nat.lt_of_not_le serials.2⟩

theorem stagedDistinct_cons {s : State} {run : Running} {op : Op} {rest : List Op} :
    stagedDistinct s run (op :: rest) = true ↔
      (∀ image, op = .insert image → isDuplicate s run (Definition.ofImage image).criteria = false) ∧
        stagedDistinct s (run.after s op) rest = true := by
  cases op <;> simp [stagedDistinct]

theorem stagedDistinct_of_validateFrom {s : State} : ∀ {ops : List Op} {n : Nat} {run : Running},
    validateFrom s n run ops = none → stagedDistinct s run ops = true
  | [], _, _, _ => rfl
  | op :: rest, n, run, h => by
    obtain ⟨one, others⟩ := validateFrom_cons_none h
    refine stagedDistinct_cons.2 ⟨?_, stagedDistinct_of_validateFrom others⟩
    rintro image rfl
    exact (validateInsert_none one).2.1

theorem insertCount_cons (op : Op) (rest : List Op) : insertCount (op :: rest)
    = insertCount rest + (match op with
      | .insert _ => 1
      | _ => 0) := by
  unfold insertCount
  cases op <;> simp

/-- There are FREE slots and serials for all INSERTs of a list that passes (R103, R105). -/
theorem room_of_validateFrom {s : State} : ∀ {ops : List Op} {n : Nat} {run : Running},
    validateFrom s n run ops = none → insertCount ops ≠ 0 →
    run.inserts + insertCount ops ≤ freeCount s ∧ s.rtb.exhausted = false ∧
      s.rtb.nextSerial.toNat + run.inserts + insertCount ops ≤ 2 ^ 32
  | [], _, _, _, inserts => absurd rfl inserts
  | op :: rest, n, run, h, inserts => by
    obtain ⟨one, others⟩ := validateFrom_cons_none h
    rw [insertCount_cons] at inserts ⊢
    by_cases hr : insertCount rest = 0
    · cases op with
      | insert image =>
        obtain ⟨-, -, slots, left, serials⟩ := validateInsert_none one
        rw [hr]
        exact ⟨by simpa using slots, left, by dsimp only; omega⟩
      | _ => exact absurd hr inserts
    · obtain ⟨slots, left, serials⟩ := room_of_validateFrom others hr
      cases op with
      | insert image =>
        simp only [Running.after] at slots serials
        exact ⟨by dsimp only; omega, left, by dsimp only; omega⟩
      | remove w =>
        have same : (run.after s (.remove w)).inserts = run.inserts := by
          simp only [Running.after]; split <;> rfl
        rw [same] at slots serials
        exact ⟨slots, left, serials⟩
      | _ => exact ⟨slots, left, serials⟩

theorem validateFrom_of_validate {s : State} (h : validate s = none) :
    validateFrom s 0 ⟨[], [], 0⟩ s.edu.ops = none := by
  unfold validate at h
  split at h
  · cases h
  · rename_i ops; rw [ops]; exact h

/-! ### The transaction under every command -/

/-- A transaction is BUILDING after a command only where it was, with the same ops, or where COMMIT has just
accepted them (R94, R99). -/
theorem Effect.building {x : Instr} {s t : State} (h : Effect x s t) (b : t.edu.txn = .building) :
    t.edu.ops = s.edu.ops ∧ (s.edu.txn = .building ∨ validate s = none ∧ t.rtb = s.rtb) := by
  cases h with
  | inner _ h =>
    have same := h.inner.rest.2.1
    exact ⟨by rw [same], .inl (by rw [← same]; exact b)⟩
  | supervision =>
    have same := (inner_withdrawAll .fallback (s.rlu.releaseList.filter (fun r => !ticketEssential s r))
      { s with ctu := { s.ctu with device := .fallback, timer := none } }).rest.2.1
    rw [raise_edu, same] at b ⊢
    exact ⟨rfl, .inl b⟩
  | host seq r u _ e =>
    rw [closeSpi_edu] at b ⊢
    cases e with
    | inner h =>
      have same := h.inner.rest.2.1
      exact ⟨by rw [same], .inl (by rw [← same]; exact b)⟩
    | stop =>
      have same := (inner_withdrawAll .stopped s.rlu.releaseList
        { s with ctu := { s.ctu with device := .standby, timer := none } }).rest.2.1
      rw [same] at b ⊢
      exact ⟨rfl, .inl b⟩
    | accept r opened accepted => exact ⟨rfl, .inr ⟨accepted, rfl⟩⟩
    | stage op opened => exact absurd (opened.symm.trans b) (by decide)
    | restart => cases b
    | begin => cases b
    | discard => cases b
    | _ => exact ⟨rfl, .inl b⟩
  | reset => cases b
  | cutoverDone => cases b
  | cutoverFailed => cases b
  | _ => exact ⟨rfl, .inl b⟩

/-! ### Serials (R15, R18, R105) -/

theorem SerialsSound.of_noneNew {s t : State} (h : SerialsSound s) (g : NoneNew s t) (c : CountersKept s t)
    (b : t.edu.txn = .building → insertCount t.edu.ops ≠ 0 →
      s.rtb.exhausted = false ∧ s.rtb.nextSerial.toNat + insertCount t.edu.ops ≤ 2 ^ 32) :
    SerialsSound t := by
  obtain ⟨-, next, exhausted⟩ := c
  constructor
  · intro i e he hx
    obtain ⟨e', he', n⟩ := g.entry i e he
    rw [n, next]
    exact h.given i e' he' (exhausted ▸ hx)
  · intro i j a b ha hb hab
    have live : ∀ {i a}, (t.slot i).body.live? = some a →
        ∃ l, (s.slot i).body.live? = some l ∧ a.entry.serial = l.entry.serial := by
      intro i a ha
      cases hi : (t.slot i).body with
      | live m =>
        obtain rfl : m = a := by simpa [hi, SlotBody.live?] using ha
        obtain ⟨l, hl, -, n, -⟩ := g.live i m hi
        exact ⟨l, by rw [hl]; rfl, n⟩
      | _ => simp [hi, SlotBody.live?] at ha
    obtain ⟨l, hl, n⟩ := live ha
    obtain ⟨l', hl', n'⟩ := live hb
    exact h.distinct i j l l' hl hl' (by rw [← n, ← n', hab])
  · intro hx; rw [next]; exact h.top (exhausted ▸ hx)
  · rw [next, exhausted]; exact b

/-- The serials while a cutover applies its ops: sound, with serials left for the INSERTs to come. -/
structure SerialsLeft (s : State) (ops : List Op) : Prop where
  given    : ∀ i e, (s.slot i).body.entry? = some e → s.rtb.exhausted = false →
    e.serial < s.rtb.nextSerial
  distinct : ∀ i j a b, (s.slot i).body.live? = some a → (s.slot j).body.live? = some b →
    a.entry.serial = b.entry.serial → i = j
  top      : s.rtb.exhausted = true → s.rtb.nextSerial = 0xFFFFFFFF#32
  left     : insertCount ops ≠ 0 →
    s.rtb.exhausted = false ∧ s.rtb.nextSerial.toNat + insertCount ops ≤ 2 ^ 32

theorem SerialsLeft.of_noneNew {s t : State} {ops : List Op} (h : SerialsLeft s ops) (g : NoneNew s t)
    (c : CountersKept s t) : SerialsLeft t ops := by
  have sound : SerialsSound { s with edu := { s.edu with txn := .building, ops := ops } } :=
    ⟨h.given, h.distinct, h.top, fun _ => h.left⟩
  have kept : SerialsSound { t with edu := { t.edu with txn := .building, ops := ops } } :=
    sound.of_noneNew ⟨g.entry, g.live⟩ c (fun _ => h.left)
  exact ⟨kept.given, kept.distinct, kept.top, kept.building rfl⟩

theorem serialsLeft_applyInsert {s : State} {image : List Byte} {rest : List Op}
    (h : SerialsLeft s (.insert image :: rest)) : SerialsLeft (applyInsert image s).1 rest := by
  have count : insertCount (.insert image :: rest) = insertCount rest + 1 := insertCount_cons _ _
  obtain ⟨ready, room⟩ := h.left (by omega)
  cases free : lowestFree s with
  | none =>
    rw [applyInsert_none free]
    exact ⟨h.given, h.distinct, h.top, fun _ => ⟨ready, by omega⟩⟩
  | some i =>
    have slot := applyInsert_slot free image
    have newSerial : (newEntry s (.ofImage image)).entry.serial = s.rtb.nextSerial := rfl
    have next : (applyInsert image s).1.rtb.nextSerial
        = if s.rtb.nextSerial.toNat = 4294967295 then s.rtb.nextSerial else s.rtb.nextSerial + 1#32 := by
      rw [applyInsert_some free, takeSerial_eq]; rfl
    have spent : (applyInsert image s).1.rtb.exhausted = (s.rtb.nextSerial.toNat == 4294967295) := by
      rw [applyInsert_some free, takeSerial_eq]
      show (s.rtb.exhausted || _) = _
      rw [ready]; rfl
    have counts : (applyInsert image s).1.rtb.exhausted = false →
        (applyInsert image s).1.rtb.nextSerial.toNat = s.rtb.nextSerial.toNat + 1 := by
      intro hx
      rw [spent, beq_eq_false_iff_ne] at hx
      have := s.rtb.nextSerial.isLt
      rw [next, if_neg hx, BitVec.toNat_add, Nat.mod_eq_of_lt] <;> (simp; try omega)
    have old : ∀ {j b}, i ≠ j → ((applyInsert image s).1.slot j).body.live? = some b →
        (s.slot j).body.live? = some b ∧ b.entry.serial < s.rtb.nextSerial := by
      intro j b hj hb
      rw [slot, if_neg hj] at hb
      refine ⟨hb, h.given j b.entry ?_ ready⟩
      cases hs : (s.slot j).body <;> simp_all [SlotBody.live?, SlotBody.entry?]
    have fresh : ∀ {b}, ((applyInsert image s).1.slot i).body.live? = some b →
        b.entry.serial = s.rtb.nextSerial := by
      intro b hb
      rw [slot, if_pos rfl] at hb
      obtain rfl : newEntry s (.ofImage image) = b := by simpa [SlotBody.live?] using hb
      rfl
    constructor
    · intro j e he hx
      have more := counts hx
      rw [slot] at he
      rw [BitVec.lt_def, more]
      split at he
      · obtain rfl : (newEntry s (.ofImage image)).entry = e := by simpa [SlotBody.entry?] using he
        rw [newSerial]; omega
      · have := h.given j e he ready
        rw [BitVec.lt_def] at this; omega
    · intro j k a b ha hb hab
      by_cases hj : i = j <;> by_cases hk : i = k
      · exact hj.symm.trans hk
      · subst hj
        have := (old hk hb).2
        rw [← hab, fresh ha] at this
        exact absurd this (BitVec.lt_irrefl _)
      · subst hk
        have := (old hj ha).2
        rw [hab, fresh hb] at this
        exact absurd this (BitVec.lt_irrefl _)
      · exact h.distinct j k a b (old hj ha).1 (old hk hb).1 hab
    · intro hx
      rw [spent, beq_iff_eq] at hx
      rw [next, if_pos hx]
      exact BitVec.eq_of_toNat_eq hx
    · intro inserts
      have more : (applyInsert image s).1.rtb.exhausted = false := by
        rw [spent, beq_eq_false_iff_ne]; omega
      exact ⟨more, by rw [counts more]; omega⟩

theorem serialsLeft_applyOp {op : Op} {rest : List Op} {s : State} (h : SerialsLeft s (op :: rest)) :
    SerialsLeft (applyOp op s).1 rest := by
  cases target : op.target with
  | none =>
    cases op with
    | insert image =>
      show SerialsLeft (applyInsert image s).1 rest
      exact serialsLeft_applyInsert h
    | _ => cases target
  | some w =>
    obtain ⟨g, c⟩ := noneNew_applyOp s target
    refine SerialsLeft.of_noneNew ⟨h.given, h.distinct, h.top, ?_⟩ g c
    have left := h.left
    cases op with
    | insert image => cases target
    | _ => exact left

theorem serialsLeft_applyOps : ∀ {ops : List Op} {s : State}, SerialsLeft s ops →
    SerialsLeft (applyOps ops s).1 []
  | [], _, h => h
  | _ :: rest, _, h => serialsLeft_applyOps (ops := rest) (serialsLeft_applyOp h)

/-! ### Steps -/

/-- What every command keeps and the queue does not touch, every step keeps. -/
theorem step_keeps {P : State → Prop} (queue : ∀ s q, P s → P { s with pending := q })
    (keep : ∀ c s t, Effect c s t → P s → P t) {s t : State} (h : step s = .next t) (hs : P s) : P t := by
  unfold step at h
  split at h
  · obtain rfl := Host.Outcome.next.inj h; exact hs
  · exact keep _ _ _ (exec_effect h) (queue _ _ hs)

theorem slot_of_cleared {t : State} (h : t.rtb.slots = RouteTable.reset.slots) (i : SlotNo) :
    t.slot i = ⟨0#6, .free⟩ := by
  simp [State.slot, h, RouteTable.reset]

theorem Effect.serials {x : Instr} {s t : State} (h : Effect x s t) (hs : SerialsSound s) :
    SerialsSound t := by
  have building : t.edu.txn = .building → insertCount t.edu.ops ≠ 0 →
      s.rtb.exhausted = false ∧ s.rtb.nextSerial.toNat + insertCount t.edu.ops ≤ 2 ^ 32 := by
    intro b
    obtain ⟨ops, was | ⟨accepted, -⟩⟩ := h.building b
    · rw [ops]; exact hs.building was
    · intro inserts
      rw [ops] at inserts ⊢
      obtain ⟨-, ready, room⟩ := room_of_validateFrom (validateFrom_of_validate accepted) inserts
      exact ⟨ready, room⟩
  rcases h.table with g | ⟨-, e⟩ | ⟨-, c, e⟩ | ⟨-, was, rfl⟩
  · exact hs.of_noneNew (.of_evolves g.slots) g.counters building
  · have empty := slot_of_cleared (t := t) (by rw [e])
    refine ⟨?_, ?_, ?_, ?_⟩
    · simp [empty, SlotBody.entry?]
    · simp [empty, SlotBody.live?]
    · simp [e, RouteTable.reset]
    · intro b inserts
      refine ⟨by rw [e]; rfl, ?_⟩
      rw [e]
      have := (building b inserts).2
      show 0 + _ ≤ _
      omega
  · have empty := slot_of_cleared e
    refine hs.of_noneNew ⟨?_, ?_⟩ c building
    · simp [empty, SlotBody.entry?]
    · simp [empty]
  · have done := serialsLeft_applyOps ⟨hs.given, hs.distinct, hs.top, hs.building was⟩
    exact ⟨done.given, done.distinct, done.top, fun b => by cases b⟩

/-- Settles O57: entries keep their serials, and the INSERTs of a cutover take the serials that COMMIT
reserved. -/
theorem stepKeepsSerials : Obligations.StepKeepsSerials := by
  intro s t hs step
  exact step_keeps (fun _ _ h => ⟨h.given, h.distinct, h.top, h.building⟩) (fun _ _ _ h => h.serials) step hs

/-! ### Criteria (R8, R102) -/

theorem namedLive_iff {s : State} {w : Half} {i : SlotNo} : s.namedLive w = some i ↔
    w.getLsbD 15 = false ∧ handleSlot w = i ∧ (s.slot i).era = handleEra w ∧ (s.slot i).body.isLive = true := by
  simp only [State.namedLive, State.named, Option.filter_eq_some_iff]
  constructor
  · rintro ⟨h, live⟩
    split at h
    · rename_i c
      obtain rfl := Option.some.inj h
      simp only [Bool.and_eq_true, Bool.not_eq_true', beq_iff_eq] at c
      exact ⟨c.1.1, rfl, c.2, live⟩
    · cases h
  · rintro ⟨b, rfl, era, live⟩
    have notFree : (s.slot (handleSlot w)).body.isFree = false := by
      cases hb : (s.slot (handleSlot w)).body <;> simp_all [SlotBody.isLive, SlotBody.isFree]
    refine ⟨?_, live⟩
    have c : (!w.getLsbD 15 && !(s.slot (handleSlot w)).body.isFree &&
        (s.slot (handleSlot w)).era == handleEra w) = true := by
      simp only [b, notFree, era, Bool.not_false, Bool.and_self, beq_self_eq_true]
    rw [if_pos c]

theorem isDuplicate_iff {s : State} {run : Running} {c : Criteria} : isDuplicate s run c = true ↔
    c ∈ run.criteria ∨ ∃ i l, (s.slot i).body = .live l ∧ i ∉ run.removed ∧
      l.entry.definition.criteria = c := by
  simp only [isDuplicate, Bool.or_eq_true, List.contains_eq_mem, decide_eq_true_iff, List.any_eq_true,
    Bool.and_eq_true, Bool.not_eq_true', decide_eq_false_iff_not, beq_iff_eq, Prod.exists, mem_liveEntries]

/-- A run of validation over fewer entries: what it has removed of the entries still there, and the same
criteria. -/
structure Running.Within (t : State) (run' run : Running) : Prop where
  criteria : run'.criteria = run.criteria
  removed  : ∀ i, i ∈ run.removed → (t.slot i).body.isLive = true → i ∈ run'.removed

theorem Running.Within.after {s t : State} (g : NoneNew s t) {run run' : Running}
    (h : run'.Within t run) (op : Op) : (run'.after t op).Within t (run.after s op) := by
  cases op with
  | insert image => exact ⟨by simp [Running.after, h.criteria], h.removed⟩
  | amend w image => exact h
  | renew w => exact h
  | remove w =>
    have still : ∀ i, s.namedLive w = some i → (t.slot i).body.isLive = true → t.namedLive w = some i := by
      intro i hi live
      obtain ⟨b, e, era, -⟩ := namedLive_iff.1 hi
      cases hb : (t.slot i).body with
      | live m =>
        obtain ⟨l, -, same, -⟩ := g.live i m hb
        exact namedLive_iff.2 ⟨b, e, same.trans era, live⟩
      | _ => simp [hb, SlotBody.isLive] at live
    refine ⟨?_, ?_⟩
    · have keep : ∀ (u : State) (r : Running), (r.after u (.remove w)).criteria = r.criteria := by
        intro u r; simp only [Running.after]; split <;> rfl
      rw [keep, keep, h.criteria]
    · intro i hi live
      simp only [Running.after] at hi ⊢
      cases ht : t.namedLive w with
      | none =>
        cases hs : s.namedLive w with
        | none => rw [hs] at hi; exact h.removed i hi live
        | some j =>
          rw [hs] at hi
          rcases List.mem_cons.1 hi with rfl | hi
          · rw [still i hs live] at ht; cases ht
          · exact h.removed i hi live
      | some k =>
        cases hs : s.namedLive w with
        | none => rw [hs] at hi; exact List.mem_cons_of_mem _ (h.removed i hi live)
        | some j =>
          rw [hs] at hi
          rcases List.mem_cons.1 hi with rfl | hi
          · rw [still i hs live] at ht
            obtain rfl := Option.some.inj ht
            exact List.mem_cons_self
          · exact List.mem_cons_of_mem _ (h.removed i hi live)

/-- Staged INSERTs that repeat no criteria repeat none of fewer entries. -/
theorem stagedDistinct_of_noneNew {s t : State} (g : NoneNew s t) : ∀ {ops : List Op} {run run' : Running},
    run'.Within t run → stagedDistinct s run ops = true → stagedDistinct t run' ops = true
  | [], _, _, _, _ => rfl
  | op :: rest, run, run', h, hs => by
    rw [stagedDistinct_cons] at hs ⊢
    refine ⟨fun image e => ?_, stagedDistinct_of_noneNew g (h.after g op) hs.2⟩
    have fresh := hs.1 image e
    rw [← Bool.not_eq_true, isDuplicate_iff] at fresh ⊢
    rintro (c | ⟨i, l, live, out, same⟩)
    · exact fresh (.inl (h.criteria ▸ c))
    · obtain ⟨k, hk, -, -, sameK⟩ := g.live i l live
      exact fresh (.inr ⟨i, k, hk, fun c => out (h.removed i c (by rw [live]; rfl)), sameK ▸ same⟩)

/-- The criteria of the LIVE entries, apart from one another. -/
def DistinctCriteria (s : State) : Prop :=
  ∀ i j a b, (s.slot i).body.live? = some a → (s.slot j).body.live? = some b →
    a.entry.definition.criteria = b.entry.definition.criteria → i = j

theorem live?_eq_some {b : SlotBody} {l : LiveEntry} : b.live? = some l ↔ b = .live l := by
  cases b <;> simp [SlotBody.live?]

theorem DistinctCriteria.of_noneNew {s t : State} (h : DistinctCriteria s) (g : NoneNew s t) :
    DistinctCriteria t := by
  intro i j a b ha hb hab
  obtain ⟨l, hl, -, -, cl⟩ := g.live i a (live?_eq_some.1 ha)
  obtain ⟨m, hm, -, -, cm⟩ := g.live j b (live?_eq_some.1 hb)
  exact h i j l m (live?_eq_some.2 hl) (live?_eq_some.2 hm) (by rw [← cl, ← cm, hab])

/-- While a cutover applies its ops, from the state `s`: every LIVE entry is of an INSERT already applied, or
was there at the start and no REMOVE applied so far names it. -/
structure Applying (s u : State) (run : Running) : Prop where
  distinct : DistinctCriteria u
  origin   : ∀ j b, (u.slot j).body = .live b → b.entry.definition.criteria ∈ run.criteria ∨
    j ∉ run.removed ∧ ∃ l, (s.slot j).body = .live l ∧ (u.slot j).era = (s.slot j).era ∧
      b.entry.definition.criteria = l.entry.definition.criteria

theorem Applying.of_noneNew {s u v : State} {run : Running} (h : Applying s u run) (g : NoneNew u v) :
    Applying s v run where
  distinct := h.distinct.of_noneNew g
  origin j b hb := by
    obtain ⟨m, hm, era, -, same⟩ := g.live j b hb
    rcases h.origin j m hm with c | ⟨out, l, hl, era', c⟩
    · exact .inl (same ▸ c)
    · exact .inr ⟨out, l, hl, era.trans era', same.trans c⟩

theorem Applying.remove {s u : State} {run : Running} (h : Applying s u run) (w : Half) :
    Applying s (applyOp (.remove w) u).1 (run.after s (.remove w)) := by
  have next := h.of_noneNew (noneNew_applyOp u (op := .remove w) rfl).1
  cases hs : s.namedLive w with
  | none => simpa only [Running.after, hs] using next
  | some i =>
    simp only [Running.after, hs]
    refine ⟨next.distinct, fun j b hb => ?_⟩
    rcases next.origin j b hb with c | ⟨out, l, hl, era, c⟩
    · exact .inl c
    · refine .inr ⟨fun hj => ?_, l, hl, era, c⟩
      rcases List.mem_cons.1 hj with rfl | hj
      · obtain ⟨m, hm, same, -⟩ :=
          (noneNew_applyOp u (op := .remove w) rfl).1.live j b hb
        obtain ⟨b15, slot, eraS, -⟩ := namedLive_iff.1 hs
        have named : u.namedLive w = some j :=
          namedLive_iff.2 ⟨b15, slot, by rw [← same, era, eraS], by rw [hm]; rfl⟩
        have gone := retire_notLive .removed j u
        simp only [applyOp, named] at hb
        rw [hb] at gone
        cases gone
      · exact out hj

theorem Applying.insert {s u : State} {run : Running} {image : List Byte} (h : Applying s u run)
    (fresh : isDuplicate s run (Definition.ofImage image).criteria = false) :
    Applying s (applyOp (.insert image) u).1 (run.after s (.insert image)) := by
  rw [← Bool.not_eq_true, isDuplicate_iff] at fresh
  have apart : ∀ j b, (u.slot j).body = .live b →
      b.entry.definition.criteria ≠ (Definition.ofImage image).criteria := by
    intro j b hb e
    rcases h.origin j b hb with c | ⟨out, l, hl, -, c⟩
    · exact fresh (.inl (e ▸ c))
    · exact fresh (.inr ⟨j, l, hl, out, c.symm.trans e⟩)
  show Applying s (applyInsert image u).1 _
  cases free : lowestFree u with
  | none =>
    rw [applyInsert_none free]
    refine ⟨h.distinct, fun j b hb => ?_⟩
    rcases h.origin j b hb with c | c
    · exact .inl (List.mem_cons_of_mem _ c)
    · exact .inr c
  | some i =>
    have slot := applyInsert_slot free image
    have cases' : ∀ j b, ((applyInsert image u).1.slot j).body = .live b →
        (i = j ∧ b.entry.definition = .ofImage image) ∨ (i ≠ j ∧ (u.slot j).body = .live b) := by
      intro j b hb
      rw [slot] at hb
      by_cases hj : i = j
      · rw [if_pos hj] at hb
        obtain rfl : newEntry u (.ofImage image) = b := by simpa using hb
        exact .inl ⟨hj, rfl⟩
      · rw [if_neg hj] at hb
        exact .inr ⟨hj, hb⟩
    constructor
    · intro j k a b ha hb hab
      rcases cases' j a (live?_eq_some.1 ha) with ⟨hj, ea⟩ | ⟨hj, ha⟩ <;>
        rcases cases' k b (live?_eq_some.1 hb) with ⟨hk, eb⟩ | ⟨hk, hb⟩
      · exact hj.symm.trans hk
      · exact absurd (by rw [← hab, ea]) (apart k b hb)
      · exact absurd (by rw [hab, eb]) (apart j a ha)
      · exact h.distinct j k a b (live?_eq_some.2 ha) (live?_eq_some.2 hb) hab
    · intro j b hb
      rcases cases' j b hb with ⟨-, e⟩ | ⟨hj, hb⟩
      · exact .inl (by rw [e]; exact List.mem_cons_self)
      · rcases h.origin j b hb with c | ⟨out, l, hl, era, c⟩
        · exact .inl (List.mem_cons_of_mem _ c)
        · exact .inr ⟨out, l, hl, by rw [slot, if_neg hj]; exact era, c⟩

theorem distinctCriteria_applyOps {s : State} : ∀ {ops : List Op} {u : State} {run : Running},
    Applying s u run → stagedDistinct s run ops = true → DistinctCriteria (applyOps ops u).1
  | [], _, _, h, _ => h.distinct
  | op :: rest, u, run, h, staged => by
    rw [stagedDistinct_cons] at staged
    refine distinctCriteria_applyOps (ops := rest) (u := (applyOp op u).1) ?_ staged.2
    cases op with
    | insert image => exact h.insert (staged.1 image rfl)
    | remove w => exact h.remove w
    | amend w image => exact h.of_noneNew (noneNew_applyOp u (op := .amend w image) rfl).1
    | renew w => exact h.of_noneNew (noneNew_applyOp u (op := .renew w) rfl).1

theorem Effect.criteria {x : Instr} {s t : State} (h : Effect x s t) (hs : CriteriaSound s) :
    CriteriaSound t := by
  have fewer : NoneNew s t → CriteriaSound t := by
    intro g
    refine ⟨DistinctCriteria.of_noneNew hs.live g, fun b => ?_⟩
    have within : Running.Within t ⟨[], [], 0⟩ ⟨[], [], 0⟩ := ⟨rfl, fun _ h => by cases h⟩
    obtain ⟨ops, was | ⟨accepted, -⟩⟩ := h.building b
    · rw [ops]; exact stagedDistinct_of_noneNew g within (hs.building was)
    · rw [ops]
      exact stagedDistinct_of_noneNew g within
        (stagedDistinct_of_validateFrom (validateFrom_of_validate accepted))
  rcases h.table with g | ⟨-, e⟩ | ⟨-, -, e⟩ | ⟨-, was, rfl⟩
  · exact fewer (.of_evolves g.slots)
  · have empty := slot_of_cleared (t := t) (by rw [e])
    exact fewer ⟨by simp [empty, SlotBody.entry?], by simp [empty]⟩
  · have empty := slot_of_cleared e
    exact fewer ⟨by simp [empty, SlotBody.entry?], by simp [empty]⟩
  · have start : Applying s s ⟨[], [], 0⟩ :=
      ⟨hs.live, fun j b hb => .inr ⟨by simp, b, hb, rfl, rfl⟩⟩
    exact ⟨distinctCriteria_applyOps start (hs.building was), fun b => by cases b⟩

/-- Settles O58: no entry but an INSERT's is new, and the INSERTs of a cutover repeat the criteria of no entry
that is still there. -/
theorem stepKeepsCriteria : Obligations.StepKeepsCriteria := by
  intro s t hs step
  exact step_keeps (fun _ _ h => ⟨h.live, by
    intro b
    exact stagedDistinct_of_noneNew (NoneNew.of_eq (by rfl)) ⟨rfl, fun _ h => by cases h⟩ (h.building b)⟩)
    (fun _ _ _ h => h.criteria) step hs

end Sys2Proof.Machine
end

section
/-!
What every step keeps of the control unit, the event unit, the op list and the emptiness of INIT.
-/

namespace Sys2Proof.Machine

/-- What withdrawals after a change of the control unit leave as it was. -/
theorem withdrawAll_ctu (reason : WithdrawReason) (rs : List RecNo) (c : ControlUnit) (s : State) :
    (withdrawAll reason rs { s with ctu := c }).ctu = c ∧
    (withdrawAll reason rs { s with ctu := c }).edu = s.edu ∧
    (withdrawAll reason rs { s with ctu := c }).evu = s.evu := by
  obtain ⟨evu, -, -, -, edu, -, ctu⟩ := withdrawAll_frame reason rs { s with ctu := c }
  exact ⟨ctu, edu, evu⟩

/-! ### The control unit (R163, R164, R171, R173) -/

theorem ControlSound.of_eq {s t : State} (hs : ControlSound s) (h : t.ctu = s.ctu) : ControlSound t where
  timer := h ▸ hs.timer
  now := h ▸ hs.now
  held isHeld := by
    have same : Machine.held t = Machine.held s := by simp only [Machine.held, h]
    rw [h]; exact hs.held (same ▸ isHeld)
  period := h ▸ hs.period
  limit := h ▸ hs.limit

/-- Starting the timer makes it RUNNING exactly with a window (R173). -/
theorem startedTimer_isSome (c : ControlUnit) : (startedTimer c).isSome = true ↔ c.window ≠ 0#16 := by
  unfold startedTimer; split <;> simp_all

/-- A change of the control unit that keeps the hold and the level of RESET#. -/
theorem ControlSound.of_ctu {s t : State} (hs : ControlSound s)
    (initKept : t.ctu.device = .init ↔ s.ctu.device = .init)
    (now : s.ctu.device ≠ .init ∨ t.ctu.now = s.ctu.now)
    (timer : t.ctu.timer.isSome = true ↔ t.ctu.device = .active ∧ t.ctu.window ≠ 0#16)
    (period : 1 ≤ t.ctu.tickPeriod.toNat ∧ t.ctu.tickPeriod.toNat ≤ 1000) (limit : t.ctu.offerLimit ≠ 0#8)
    (pins : Machine.held t = Machine.held s) : ControlSound t where
  timer := timer
  now h := by
    rcases now with g | g
    · exact absurd (initKept.1 h) g
    · rw [g]; exact hs.now (initKept.1 h)
  held h := initKept.2 (hs.held (pins ▸ h))
  period := period
  limit := limit

theorem control_hardResetTo (cause : ResetCause) (hold low : Bool) (s : State) :
    ControlSound (hardResetTo cause hold low s) where
  timer := by simp [hardResetTo, ControlUnit.reset]
  now _ := rfl
  held _ := rfl
  period := by simp [hardResetTo, ControlUnit.reset, Config.defaultTickPeriod]
  limit := by simp [hardResetTo, ControlUnit.reset, Config.defaultOfferLimit]

theorem HostEffect.control {s u : State} (h : HostEffect s u) (ready : s.ctu.device ≠ .init)
    (hs : ControlSound s) : ControlSound u := by
  cases h with
  | inner h => exact hs.of_eq h.inner.rest.2.2.2
  | activate =>
    refine hs.of_ctu (by simp [ready]) (.inl ready) ?_ hs.period hs.limit rfl
    simp [startedTimer_isSome]
  | stop =>
    have stopped : ControlSound { s with ctu := { s.ctu with device := .standby, timer := none } } :=
      hs.of_ctu (by simp [ready]) (.inl ready) (by simp) hs.period hs.limit rfl
    exact stopped.of_eq (withdrawAll_ctu _ _ _ s).1
  | keepalive active window =>
    refine hs.of_ctu (by simp) (.inl ready) ?_ hs.period hs.limit rfl
    simp [startedTimer_isSome, active]
  | period v low high => exact hs.of_ctu (by simp) (.inl ready) hs.timer ⟨low, high⟩ hs.limit rfl
  | window v inactive =>
    refine hs.of_ctu (by simp) (.inl ready) ?_ hs.period hs.limit rfl
    have := hs.timer
    simpa [inactive] using this
  | windowRestart v active =>
    refine hs.of_ctu (by simp) (.inl ready) ?_ hs.period hs.limit rfl
    simp [startedTimer_isSome, active]
  | limit v nonzero => exact hs.of_ctu (by simp) (.inl ready) hs.timer hs.period nonzero rfl
  | restart =>
    refine hs.of_ctu ?_ (.inl ready) ?_ hs.period hs.limit rfl
    · simp [warmRestart, ready]
    · simp [warmRestart]
  | _ => exact hs.of_eq rfl

theorem Effect.control {x : Instr} {s t : State} (h : Effect x s t) (hs : ControlSound s) :
    ControlSound t := by
  cases h with
  | inner _ h => exact hs.of_eq h.inner.rest.2.2.2
  | reset => exact control_hardResetTo _ _ _ s
  | pins hold low _ isHeld => exact ⟨hs.timer, hs.now, fun _ => hs.held isHeld, hs.period, hs.limit⟩
  | memoryClear _ init notHeld =>
    have off : s.ctu.timer.isSome = false := by
      rw [← Bool.not_eq_true, hs.timer, init]; rintro ⟨h, -⟩; cases h
    have released : ∀ h : Bool, h = true → h = false → DeviceState.standby = .init := by
      rintro h rfl e; cases e
    refine ⟨?_, nofun, fun h => released _ h notHeld, hs.period, hs.limit⟩
    show s.ctu.timer.isSome = true ↔ DeviceState.standby = .active ∧ _
    simp [off]
  | tick ready => exact hs.of_ctu (by simp) (.inl ready) hs.timer hs.period hs.limit rfl
  | supervision active =>
    have ready : s.ctu.device ≠ .init := by rw [active]; decide
    have stopped : ControlSound { s with ctu := { s.ctu with device := .fallback, timer := none } } :=
      hs.of_ctu (by simp [ready]) (.inl ready) (by simp) hs.period hs.limit rfl
    exact stopped.of_eq (withdrawAll_ctu _ _ _ s).1
  | cutoverDone => exact hs.of_eq (applyOps_frame s.edu.ops s).2.2.2.1
  | host seq r u ready e => exact (e.control ready hs).of_eq rfl
  | _ => exact hs.of_eq rfl

/-! ### The event unit (R179) -/

theorem EventsSound.of_sets {s t : State} (hs : EventsSound s) (h : s.evu.SetsKept t.evu) : EventsSound t := by
  obtain ⟨f1, f2, p1, p2⟩ := h
  constructor
  · rw [f1, p1]; exact hs.overrun
  · rw [f2, p2]; exact hs.link

theorem EventUnit.SetsKept.refl (e : EventUnit) : e.SetsKept e := ⟨rfl, rfl, rfl, rfl⟩

/-- A set to which a port was added is not empty. -/
theorem or_portBit_ne_zero (set : SegSet) (p : PortNo) : set ||| 1#8 <<< p.val ≠ 0#8 := by
  intro h
  have bit := segBit_has p p
  rw [segBit, decide_eq_true rfl] at bit
  have := congrArg (fun v : SegSet => v.getLsbD p.val) h
  simp only [BitVec.getLsbD_or, bit, Bool.or_true] at this
  simp at this

theorem events_raiseOverrun {s : State} (hs : EventsSound s) (p : PortNo) : EventsSound (raiseOverrun p s) := by
  constructor
  · refine iff_of_false ?_ (or_portBit_ne_zero _ _)
    simp [raiseOverrun, EventUnit.isPending, EventKind.bit, EventKind.number]
  · have : (raiseOverrun p s).evu.isPending .linkError = s.evu.isPending .linkError := by
      simp [raiseOverrun, EventUnit.isPending, EventKind.bit, EventKind.number]
    rw [this]; exact hs.link

theorem events_raiseLinkError {s : State} (hs : EventsSound s) (p : PortNo) :
    EventsSound (raiseLinkError p s) := by
  constructor
  · have : (raiseLinkError p s).evu.isPending .portOverrun = s.evu.isPending .portOverrun := by
      simp [raiseLinkError, EventUnit.isPending, EventKind.bit, EventKind.number]
    rw [this]; exact hs.overrun
  · refine iff_of_false ?_ (or_portBit_ne_zero _ _)
    simp [raiseLinkError, EventUnit.isPending, EventKind.bit, EventKind.number]

/-- No event is pending and the port sets are empty. -/
theorem EventsSound.of_clear {t : State} (flags : t.evu.flags = 0#11) (overrun : t.evu.overrunPorts = 0#8)
    (link : t.evu.linkErrorPorts = 0#8) : EventsSound t := by
  constructor <;> simp [EventUnit.isPending, flags, overrun, link]

theorem events_cleared {s : State} (hs : EventsSound s) (set : Half) :
    EventsSound { s with evu := s.evu.cleared set } := by
  have cleared : ∀ k : EventKind, (s.evu.cleared set).isPending k
      = (s.evu.isPending k && !set.getLsbD k.number.val) := by
    intro k
    have inside : k.number.val < 11 := k.number.isLt
    simp only [EventUnit.cleared, EventUnit.isPending, BitVec.getLsbD_and, BitVec.getLsbD_not,
      BitVec.getLsbD_setWidth, inside, decide_true, Bool.true_and]
  constructor
  · show (s.evu.cleared set).isPending .portOverrun = false ↔
      (if set.getLsbD EventKind.portOverrun.number.val then 0#8 else s.evu.overrunPorts) = 0#8
    rw [cleared]
    have := hs.overrun
    split <;> simp_all
  · show (s.evu.cleared set).isPending .linkError = false ↔
      (if set.getLsbD EventKind.linkError.number.val then 0#8 else s.evu.linkErrorPorts) = 0#8
    rw [cleared]
    have := hs.link
    split <;> simp_all

theorem HostEffect.events {s u : State} (h : HostEffect s u) (hs : EventsSound s) : EventsSound u := by
  cases h with
  | inner h => exact hs.of_sets h.inner.sets
  | stop =>
    exact hs.of_sets (by rw [(withdrawAll_ctu _ _ _ s).2.2]; exact .refl _)
  | restart => exact .of_clear rfl rfl rfl
  | clear set => exact events_cleared hs set
  | _ => exact hs.of_sets ⟨rfl, rfl, rfl, rfl⟩

theorem Effect.events {x : Instr} {s t : State} (h : Effect x s t) (hs : EventsSound s) : EventsSound t := by
  cases h with
  | inner _ h => exact hs.of_sets h.inner.sets
  | reset => exact .of_clear rfl rfl rfl
  | memoryClear => exact hs.of_sets (inner_raise s (k := .initDone) (by decide) (by decide)).sets
  | supervision =>
    have withdrawn : EventsSound
        (withdrawAll .fallback (s.rlu.releaseList.filter (fun r => !ticketEssential s r))
          { s with ctu := { s.ctu with device := .fallback, timer := none } }) :=
      hs.of_sets (by rw [(withdrawAll_ctu _ _ _ s).2.2]; exact .refl _)
    exact withdrawn.of_sets (inner_raise _ (k := .fallbackEntered) (by decide) (by decide)).sets
  | cutoverFailed => exact hs.of_sets (inner_raise s (k := .commitFailed) (by decide) (by decide)).sets
  | cutoverDone =>
    have same : (applyOps s.edu.ops s).1.evu = s.evu := (applyOps_frame s.edu.ops s).2.2.2.2.1
    have applied : EventsSound (applyOps s.edu.ops s).1 := hs.of_sets (by rw [same]; exact .refl _)
    exact applied.of_sets (inner_raise _ (k := .commitDone) (by decide) (by decide)).sets
  | overrun p =>
    exact events_raiseOverrun (s := s.setPort p { s.port p with overrun := true }) (hs.of_sets (.refl _)) p
  | linkError p v =>
    exact events_raiseLinkError (s := s.setPort p { s.port p with receiver := v }) (hs.of_sets (.refl _)) p
  | broken seq r => exact hs.of_sets (inner_raise s (k := .hostFrameError) (by decide) (by decide)).sets
  | host seq r u _ e => exact (e.events hs).of_sets (.refl _)
  | _ => exact hs.of_sets (.refl _)

/-! ### The op list (R93, R94) -/

theorem EditSound.of_eq {s t : State} (hs : EditSound s) (h : t.edu = s.edu) : EditSound t :=
  ⟨h ▸ hs.closed, h ▸ hs.room⟩

theorem HostEffect.edit {s u : State} (h : HostEffect s u) (hs : EditSound s) : EditSound u := by
  cases h with
  | inner h => exact hs.of_eq h.inner.rest.2.1
  | stop => exact hs.of_eq (withdrawAll_ctu _ _ _ s).2.1
  | restart => exact ⟨fun _ => rfl, Nat.zero_le _⟩
  | begin => exact ⟨fun _ => rfl, Nat.zero_le _⟩
  | discard => exact ⟨fun _ => rfl, Nat.zero_le _⟩
  | stage op opened room =>
    refine ⟨fun closed => ?_, ?_⟩
    · rw [show s.edu.txn = .closed from closed] at opened; cases opened
    · show (s.edu.ops ++ [op]).length ≤ Config.maxOps
      simpa using room
  | reject r opened =>
    refine ⟨fun closed => ?_, hs.room⟩
    rw [show s.edu.txn = .closed from closed] at opened; cases opened
  | accept => exact ⟨nofun, hs.room⟩
  | _ => exact hs.of_eq rfl

theorem Effect.edit {x : Instr} {s t : State} (h : Effect x s t) (hs : EditSound s) : EditSound t := by
  cases h with
  | inner _ h => exact hs.of_eq h.inner.rest.2.1
  | reset => exact ⟨fun _ => rfl, Nat.zero_le _⟩
  | supervision =>
    have withdrawn : EditSound
        (withdrawAll .fallback (s.rlu.releaseList.filter (fun r => !ticketEssential s r))
          { s with ctu := { s.ctu with device := .fallback, timer := none } }) :=
      hs.of_eq (withdrawAll_ctu _ _ _ s).2.1
    exact withdrawn.of_eq rfl
  | cutoverFailed => exact ⟨nofun, hs.room⟩
  | cutoverDone => exact ⟨fun _ => rfl, Nat.zero_le _⟩
  | host seq r u _ e => exact (e.edit hs).of_eq rfl
  | _ => exact hs.of_eq rfl

/-! ### INIT (R24, R74, R118, R139, R155) -/

theorem InitSound.of_ready {t : State} (h : t.ctu.device ≠ .init) : InitSound t :=
  ⟨fun e => absurd e h, fun e => absurd e h, fun e => absurd e h, fun e => absurd e h, fun e => absurd e h⟩

theorem init_hardResetTo (cause : ResetCause) (hold low : Bool) (s : State) :
    InitSound (hardResetTo cause hold low s) := by
  refine ⟨fun _ => rfl, fun _ => rfl, fun _ => rfl, fun _ p => ?_, fun _ => rfl⟩
  simp [State.port, hardResetTo, Port.cutOff, Port.reset]

/-- With no port OPEN in INIT, the device is awake only outside INIT. -/
theorem State.Awake.ready {s : State} (h : s.Awake) (hs : InitSound s) : s.ctu.device ≠ .init := by
  rcases h with h | ⟨p, h⟩
  · exact h
  · intro init
    rw [hs.ports init p] at h
    cases h

theorem HostEffect.ready {s u : State} (h : HostEffect s u) (ready : s.ctu.device ≠ .init) :
    u.ctu.device ≠ .init := by
  cases h with
  | inner h => rw [h.inner.rest.2.2.2]; exact ready
  | activate => simp
  | stop => simp [(withdrawAll_ctu _ _ _ s).1]
  | restart => simp [warmRestart]
  | _ => exact ready

/-- INIT stays empty: only the reset family and the host port act in it. -/
theorem Effect.initKept {x : Instr} {s t : State} (h : Effect x s t) (hs : InitSound s) : InitSound t := by
  cases h with
  | inner awake h => exact .of_ready (by rw [h.inner.rest.2.2.2]; exact awake.ready hs)
  | reset => exact init_hardResetTo _ _ _ s
  | memoryClear => exact .of_ready (by simp)
  | tick ready => exact .of_ready ready
  | supervision => exact .of_ready (by simp [(withdrawAll_ctu _ _ _ s).1])
  | cutoverFailed n _ building =>
    refine .of_ready (fun init => ?_)
    rw [hs.edit init] at building; cases building
  | cutoverDone _ building =>
    refine .of_ready (fun init => ?_)
    rw [show (Machine.cutoverDone s).ctu = s.ctu from (applyOps_frame s.edu.ops s).2.2.2.1] at init
    rw [hs.edit init] at building; cases building
  | overrun p opened => exact .of_ready (State.Awake.ready (s := s) (.inr ⟨p, opened⟩) hs)
  | linkError p v opened => exact .of_ready (State.Awake.ready (s := s) (.inr ⟨p, opened⟩) hs)
  | host seq r u ready e => exact .of_ready (e.ready ready)
  | _ => exact ⟨hs.table, hs.tickets, hs.edit, hs.ports, hs.cursor⟩

/-- Settles O54: each of the four by the effects that reach its block. -/
theorem stepKeepsControlEventsAndInit : Obligations.StepKeepsControlEventsAndInit := by
  intro s t step
  refine ⟨?_, ?_, ?_, ?_⟩
  · exact step_keeps (fun _ _ h => h.of_eq rfl) (fun _ _ _ h => h.control) step
  · exact step_keeps (fun _ _ h => h.of_sets (.refl _)) (fun _ _ _ h => h.events) step
  · exact step_keeps (fun _ _ h => h.of_eq rfl) (fun _ _ _ h => h.edit) step
  · exact step_keeps (fun _ _ h => ⟨h.table, h.tickets, h.edit, h.ports, h.cursor⟩)
      (fun _ _ _ h => h.initKept) step

end Sys2Proof.Machine
end

section
/-!
What every step keeps of the ports: the bounds of the queues, and the load within the quota.
-/

namespace Sys2Proof.Machine

/-! ### Counting a port's tickets (R55) -/

theorem ticketsOwned_eq_zero {s : State} {p : PortNo} :
    ticketsOwned s p = 0 ↔ ∀ r, (s.record r).body.ownedBy p = false := by
  rw [ticketsOwned, ReleaseUnit.count, List.countP_eq_zero]
  constructor
  · intro h r
    simpa using h (s.record r) (by simp [State.record])
  · intro h x hx
    obtain ⟨i, hi, rfl⟩ := List.getElem_of_mem hx
    have len : i < 96 := by simpa using hi
    simpa [State.record] using h ⟨i, len⟩

/-- Writing a record moves at most its own ticket between the ports' counts. -/
theorem ticketsOwned_setRecord (s : State) (r : RecNo) (v : TicketRecord) (p : PortNo) :
    ticketsOwned (s.setRecord r v) p + ((s.record r).body.ownedBy p).toNat
      = ticketsOwned s p + (v.body.ownedBy p).toNat := by
  have hlt : r.val < s.rlu.records.toList.length := by simp
  have here : s.rlu.records.toList[r.val] = s.record r := by simp [State.record]
  simp only [ticketsOwned, ReleaseUnit.count, State.setRecord, Vector.toList_set]
  rw [List.countP_set hlt, here]
  have counted : (s.record r).body.ownedBy p = true →
      0 < s.rlu.records.toList.countP (fun x => x.body.ownedBy p) := by
    intro h
    exact List.countP_pos_iff.2 ⟨_, List.getElem_mem hlt, by rw [here]; exact h⟩
  cases h : (s.record r).body.ownedBy p <;> cases v.body.ownedBy p <;> simp_all

theorem ticketsOwned_of_records {s t : State} (h : t.rlu.records = s.rlu.records) (p : PortNo) :
    ticketsOwned t p = ticketsOwned s p := by
  simp only [ticketsOwned, ReleaseUnit.count, h]

@[simp] theorem ownedBy_pending (h : Held) (p : PortNo) :
    (TicketBody.pending h).ownedBy p = decide (h.owner = p) := rfl

theorem ownedBy_of_held {b : TicketBody} {h : Held} (hb : b.held? = some h) (p : PortNo) :
    b.ownedBy p = decide (h.owner = p) := by
  simp only [TicketBody.ownedBy, hb]; rfl

/-- A freed record's ticket leaves its owner's count (R70). -/
theorem ticketsOwned_freeRecord (s : State) (r : RecNo) (p : PortNo) :
    ticketsOwned (freeRecord r s) p + ((s.record r).body.ownedBy p).toNat = ticketsOwned s p := by
  exact ticketsOwned_setRecord s r ⟨(s.record r).serial, .free⟩ p

/-! ### One port -/

/-- A port in its bounds, with the number of tickets it owns (R55, R127, R132, R137). -/
structure Port.Within (q : Port) (tickets : Nat) : Prop where
  bounded : q.Bounded
  closed  : q.state = .closed → tickets = 0
  quota   : q.state = .opened → tickets + q.countedNotices ≤ q.quota

theorem portsSound_iff (s : State) : PortsSound s ↔ ∀ p, (s.port p).Within (ticketsOwned s p) :=
  ⟨fun h p => ⟨h.bounded p, h.closed p, h.quota p⟩,
    fun h => ⟨fun p => (h p).bounded, fun p => (h p).closed, fun p => (h p).quota⟩⟩

theorem Port.Within.fewer {q : Port} {m n : Nat} (h : q.Within n) (le : m ≤ n) : q.Within m :=
  ⟨h.bounded, fun c => by have := h.closed c; omega, fun o => by have := h.quota o; omega⟩

/-- A port that owns a ticket is OPEN (R137). -/
theorem Port.Within.opened {q : Port} {n : Nat} (h : q.Within n) (some : 0 < n) : q.state = .opened := by
  cases hq : q.state with
  | opened => rfl
  | closed => have := h.closed hq; omega

theorem isNotice_of_isCounted : ∀ {b : OutBody}, b.isCounted = true → b.isNotice = true := by
  intro b h; cases b <;> first | rfl | cases h

theorem placedAll_one_answers (q : Port) (b : OutBody) :
    (q.placedAll [b]).answers = q.answers + (!b.isNotice).toNat := by
  rw [Port.placedAll_one, Port.answers, Port.answers, List.countP_append]
  cases h : b.isNotice <;> simp [h]

theorem placedAll_one_counted (q : Port) (b : OutBody) :
    (q.placedAll [b]).countedNotices = q.countedNotices + b.isCounted.toNat := by
  rw [Port.placedAll_one, Port.countedNotices, Port.countedNotices, List.countP_append]
  cases h : b.isCounted <;> simp [h]

/-- A message placed on an OPEN port keeps it in its bounds, where there is room for an answer, and for the
load that a counted notice adds. -/
theorem Port.Within.placed {q : Port} {m n : Nat} {b : OutBody} (h : q.Within n) (opened : q.state = .opened)
    (room : b.isNotice = false → q.answers < 8)
    (load : m + q.countedNotices + b.isCounted.toNat ≤ q.quota) : (q.placedAll [b]).Within m := by
  obtain ⟨⟨inbound, answers, quota, closed⟩, -, -⟩ := h
  have state : (q.placedAll [b]).state = .opened := opened
  refine ⟨⟨inbound, ?_, quota, fun c => ?_⟩, fun c => ?_, fun _ => ?_⟩
  · rw [placedAll_one_answers]
    cases hb : b.isNotice with
    | true => simpa using answers
    | false => have := room hb; simp [Config.answerRoom]; omega
  · rw [state] at c; cases c
  · rw [state] at c; cases c
  · rw [placedAll_one_counted]
    show m + _ ≤ q.quota
    omega

/-- An answer placed on a ready port. -/
theorem Port.Within.answered {q : Port} {n : Nat} {b : OutBody} (h : q.Within n) (ready : q.ready = true)
    (answer : b.isNotice = false) : (q.placedAll [b]).Within n := by
  obtain ⟨opened, room⟩ := (Port.ready_iff q).1 ready
  have uncounted : b.isCounted = false := by
    cases hb : b.isCounted with
    | false => rfl
    | true => rw [isNotice_of_isCounted hb] at answer; cases answer
  exact h.placed opened (fun _ => room) (by simpa [uncounted] using h.quota opened)

/-- The inbound queue of an OPEN port may change within its bound, and the receiver, the mark and the line as
they like. -/
theorem Port.Within.link {q : Port} {n : Nat} (h : q.Within n) (opened : q.state = .opened)
    {inbound : List InMsg} (room : inbound.length ≤ 4) (overrun : Bool) (receiver : Receiver) (line : LineEnd) :
    { q with inbound := inbound, overrun := overrun, receiver := receiver, line := line }.Within n := by
  refine ⟨⟨room, h.bounded.answers, h.bounded.quota, fun c => ?_⟩, h.closed, h.quota⟩
  exact absurd (opened.symm.trans c) (by decide)

/-! ### Operations -/

theorem PortsSound.within {s : State} (h : PortsSound s) (p : PortNo) :
    (s.port p).Within (ticketsOwned s p) := (portsSound_iff s).1 h p

/-- Nothing is placed, and no port owns more tickets. -/
theorem PortsSound.of_fewer {s t : State} (h : PortsSound s) (ports : t.qp = s.qp)
    (tickets : ∀ p, ticketsOwned t p ≤ ticketsOwned s p) : PortsSound t := by
  refine (portsSound_iff t).2 (fun p => ?_)
  rw [show t.port p = s.port p by simp only [State.port, ports]]
  exact (h.within p).fewer (tickets p)

theorem PortsSound.of_eq {s t : State} (h : PortsSound s) (ports : t.qp = s.qp)
    (records : t.rlu.records = s.rlu.records) : PortsSound t :=
  h.of_fewer ports (fun p => (ticketsOwned_of_records records p).le)

/-- One port changes, and no port owns more tickets. -/
theorem PortsSound.setPort {s : State} (h : PortsSound s) (p : PortNo) {q : Port}
    (hq : q.Within (ticketsOwned s p)) : PortsSound (s.setPort p q) := by
  refine (portsSound_iff _).2 (fun x => ?_)
  rw [State.port_setPort, ticketsOwned_of_records (t := s.setPort p q) (s := s) rfl]
  split
  · rename_i e; subst e; exact hq
  · exact h.within x

theorem PortsSound.answer {s : State} (h : PortsSound s) {p : PortNo} {b : OutBody}
    (ready : (s.port p).ready = true) (answer : b.isNotice = false) : PortsSound (place p b s) := by
  rw [place_eq]
  exact h.setPort p ((h.within p).answered ready answer)

theorem PortsSound.popInbound {s : State} (h : PortsSound s) {p : PortNo}
    (ready : (s.port p).ready = true) : PortsSound (Machine.popInbound p s) := by
  have opened := ((Port.ready_iff _).1 ready).1
  refine h.setPort p ((h.within p).link opened ?_ _ _ _)
  have := (h.bounded p).inbound
  rw [List.length_tail]
  simp only [Config.inboundRoom] at this
  omega

@[simp] theorem ready_popInbound (p : PortNo) (s : State) (x : PortNo) :
    ((popInbound p s).port x).ready = (s.port x).ready := by
  rw [port_popInbound]
  split
  · rename_i e; subst e; rfl
  · rfl

theorem completeTicket_tickets (r : RecNo) (s : State) (p : PortNo) :
    ticketsOwned (completeTicket r s) p + ((s.record r).body.ownedBy p).toNat = ticketsOwned s p := by
  cases hh : (s.record r).body.held? with
  | none =>
    have : (s.record r).body.ownedBy p = false := by simp only [TicketBody.ownedBy, hh]
    simp [completeTicket, hh, this]
  | some h =>
    rw [completeTicket_eq hh, ← ticketsOwned_freeRecord s r p]
    rfl

theorem ports_completeTicket {s : State} (h : PortsSound s) (r : RecNo) : PortsSound (completeTicket r s) :=
  h.of_fewer (completeTicket_frame r s).1 (fun p => by have := completeTicket_tickets r s p; omega)

theorem ports_completeAll : ∀ {rs : List RecNo} {s : State}, PortsSound s → PortsSound (completeAll rs s)
  | [], _, h => h
  | r :: rest, _, h => ports_completeAll (rs := rest) (ports_completeTicket h r)

/-- A withdrawal adds a counted notice to the load of the port whose ticket it completes (R55, R67). -/
theorem ports_withdraw {s : State} (hs : PortsSound s) (reason : WithdrawReason) (r : RecNo) :
    PortsSound (withdraw reason r s) := by
  unfold withdraw
  split
  · rename_i h pending
    refine (portsSound_iff _).2 (fun p => ?_)
    have count := completeTicket_tickets r (place h.owner (.withdrawn (s.ticketId r) h.tag reason) s) p
    have placed : ticketsOwned (place h.owner (.withdrawn (s.ticketId r) h.tag reason) s) p
        = ticketsOwned s p := rfl
    rw [place_record, pending, ownedBy_pending, placed] at count
    have ports : ∀ x, (completeTicket r (place h.owner (.withdrawn (s.ticketId r) h.tag reason) s)).port x
        = (place h.owner (.withdrawn (s.ticketId r) h.tag reason) s).port x := by
      intro x; simp only [State.port, (completeTicket_frame r _).1]
    have port : (place h.owner (.withdrawn (s.ticketId r) h.tag reason) s).port p
        = if h.owner = p then (s.port h.owner).placedAll [.withdrawn (s.ticketId r) h.tag reason]
          else s.port p := by
      rw [place_eq, State.port_setPort]
    rw [ports, port]
    have within := hs.within p
    split
    · rename_i e; subst e
      simp only [decide_true, Bool.toNat_true] at count
      have opened := within.opened (by omega)
      refine within.placed opened nofun ?_
      have := within.quota opened
      show _ + _ + 1 ≤ _
      omega
    · rename_i other
      exact within.fewer (by omega)
  all_goals exact hs

theorem ports_withdrawAll (reason : WithdrawReason) : ∀ {rs : List RecNo} {s : State}, PortsSound s →
    PortsSound (withdrawAll reason rs s)
  | [], _, h => h
  | r :: rest, _, h => ports_withdrawAll reason (rs := rest) (ports_withdraw h reason r)

theorem ports_withdrawOf {s : State} (h : PortsSound s) (reason : WithdrawReason) (i : SlotNo) :
    PortsSound (withdrawOf reason i s) := by
  unfold withdrawOf
  split
  · exact ports_withdraw h reason _
  · exact h

theorem ports_retire {s : State} (h : PortsSound s) (c : RetireCause) (i : SlotNo) :
    PortsSound (retire c i s) := by
  obtain ⟨u, hu, e⟩ := retire_cases c i s
  have first : PortsSound u := by
    rcases hu with rfl | ⟨-, reason, rfl⟩
    · exact h
    · exact ports_withdrawOf h reason i
  rcases e with ⟨l, k, -, -, e⟩ | ⟨l, -, -, e⟩ | ⟨-, e⟩ <;> rw [e]
  · exact first.of_eq rfl rfl
  · exact first.of_eq rfl rfl
  · exact first

/-- An entry that is spent keeps its ticket, and no message is placed (R45). -/
theorem spendNow_frame (i : SlotNo) (s : State) :
    (spendNow i s).qp = s.qp ∧ (spendNow i s).rlu = s.rlu ∧ (spendNow i s).pointer = s.pointer := by
  obtain ⟨u, hu, e⟩ := retire_cases .spent i s
  obtain rfl : u = s := by
    rcases hu with e | ⟨h, -⟩
    · exact e
    · exact absurd rfl h
  unfold spendNow
  rcases e with ⟨l, k, -, -, e⟩ | ⟨l, -, -, e⟩ | ⟨-, e⟩ <;> rw [e] <;> exact ⟨rfl, rfl, rfl⟩

theorem spendDeferred_frame (i : SlotNo) (s : State) :
    (spendDeferred i s).qp = s.qp ∧ (spendDeferred i s).rlu = s.rlu := by
  unfold spendDeferred
  split
  · split <;> exact ⟨rfl, rfl⟩
  · exact ⟨rfl, rfl⟩

theorem setTicketField_frame (i : SlotNo) (t : TicketId) (s : State) :
    (setTicketField i t s).qp = s.qp ∧ (setTicketField i t s).rlu = s.rlu := by
  unfold setTicketField; split <;> exact ⟨rfl, rfl⟩

theorem shutForOffer_frame (i : SlotNo) (t : Tick) (s : State) :
    (shutForOffer i t s).qp = s.qp ∧ (shutForOffer i t s).rlu = s.rlu := by
  unfold shutForOffer; split <;> exact ⟨rfl, rfl⟩

/-- A record written with a ticket of the same owner leaves every count. -/
theorem ticketsOwned_sameOwner {s : State} {r : RecNo} {h h' : Held} {v : TicketRecord}
    (was : (s.record r).body.held? = some h) (is : v.body.held? = some h') (owner : h'.owner = h.owner)
    (p : PortNo) : ticketsOwned (s.setRecord r v) p = ticketsOwned s p := by
  have := ticketsOwned_setRecord s r v p
  rw [ownedBy_of_held was, ownedBy_of_held is, owner] at this
  omega

/-- The due expiry of a ticket: its RELEASE is a notice that counts for no load (R55, R60). -/
theorem ports_fallDue {s : State} (hs : PortsSound s) {r : RecNo} {h : Held}
    (pending : (s.record r).body = .pending h) : PortsSound (fallDue r h s) := by
  unfold fallDue
  split
  · rename_i e _
    split
    · exact ports_withdraw hs _ r
    · have tickets := ticketsOwned_sameOwner (v := { s.record r with body := .offered h false none })
        (by rw [pending]; rfl) rfl rfl (s := s) (r := r)
      have offered : PortsSound (s.setRecord r { s.record r with body := .offered h false none }) :=
        hs.of_fewer rfl (fun p => (tickets p).le)
      have opened : (s.port h.owner).state = .opened := by
        refine (hs.within h.owner).opened ?_
        rw [Nat.pos_iff_ne_zero, Ne, ticketsOwned_eq_zero]
        intro none
        have := none r
        simp [pending] at this
      have within := offered.within h.owner
      have released := offered.setPort h.owner
        (within.placed (b := .release (s.ticketId r) h.tag e.action.label (destinations s h.owner e.action)
          (e.action.rewrite.getD h.ident)) opened nofun (within.quota opened))
      refine released.of_eq ?_ ?_
      · simp only [offer, place_eq, State.setPort, State.port, (shutForOffer_frame _ _ _).1]
      · simp only [offer, place_rlu, (shutForOffer_frame _ _ _).2]
        rfl
  · exact hs

/-! ### Lookup -/

/-- What the pacing of a FORWARD entry decides (R40 to R43). -/
theorem pacing_cases (s : State) (q : Query) (l : LiveEntry) (dest : SegSet) :
    (∃ paced, pacing s q l dest = .route dest paced) ∨
    (∃ reason, reason ≠ .rule ∧ pacing s q l dest = .drop reason dest) ∨
    (∃ r, ownedPending s l = some r ∧ hasQuota s q.source = true ∧ pacing s q l dest = .supersede r dest) ∨
    (∃ r rest, s.rlu.freeOrder = r :: rest ∧ hasQuota s q.source = true ∧ ownedPending s l = none ∧
      ownsOffered s l = false ∧ pacing s q l dest = .create r dest) := by
  unfold pacing
  split
  · exact .inl ⟨_, rfl⟩
  · split
    · split
      · exact .inl ⟨_, rfl⟩
      · exact .inr (.inl ⟨_, by decide, rfl⟩)
    · split
      · rename_i r owned
        split
        · rename_i quota; exact .inr (.inr (.inl ⟨r, owned, quota, rfl⟩))
        · exact .inr (.inl ⟨_, by decide, rfl⟩)
      · rename_i unowned
        split
        · exact .inl ⟨_, rfl⟩
        · split
          · exact .inr (.inl ⟨_, by decide, rfl⟩)
          · rename_i unoffered
            unfold creation
            split
            · rename_i r rest front
              split
              · rename_i quota
                exact .inr (.inr (.inr ⟨r, rest, front, quota, unowned, by simpa using unoffered, rfl⟩))
              · exact .inr (.inl ⟨_, by decide, rfl⟩)
            · exact .inr (.inl ⟨_, by decide, rfl⟩)

/-- A decision is a DROP before the pacing, or that of the pacing (R37 to R40). -/
theorem decideEntry_cases (s : State) (q : Query) (l : LiveEntry) :
    (∃ reason, decideEntry s q l = .drop reason 0#8) ∨
      decideEntry s q l = pacing s q l (destinations s q.source l.entry.action) := by
  unfold decideEntry
  dsimp only
  split
  · exact .inl ⟨_, rfl⟩
  · split
    · exact .inl ⟨_, rfl⟩
    · split
      · exact .inl ⟨_, rfl⟩
      · exact .inr rfl

/-- A DEFER by creation: the front record, quota left, and no ticket of the entry in use (R43, R56). -/
theorem decideEntry_create {s : State} {q : Query} {l : LiveEntry} {r : RecNo} {dest : SegSet}
    (h : decideEntry s q l = .create r dest) : hasQuota s q.source = true ∧
      (∃ rest, s.rlu.freeOrder = r :: rest) ∧ ownedPending s l = none ∧ ownsOffered s l = false := by
  rcases decideEntry_cases s q l with ⟨_, e⟩ | e <;> rw [e] at h
  · cases h
  · rcases pacing_cases s q l (destinations s q.source l.entry.action) with
      ⟨_, e⟩ | ⟨_, -, e⟩ | ⟨_, -, -, e⟩ | ⟨r', rest, front, quota, unowned, unoffered, e⟩ <;> rw [e] at h
    · cases h
    · cases h
    · cases h
    · obtain ⟨rfl, -⟩ : r' = r ∧ _ := by simpa using h
      exact ⟨quota, ⟨rest, front⟩, unowned, unoffered⟩

/-- A DEFER by supersede: the record of the PENDING ticket the entry owns, and quota left (R42, R56). -/
theorem decideEntry_supersede {s : State} {q : Query} {l : LiveEntry} {r : RecNo} {dest : SegSet}
    (h : decideEntry s q l = .supersede r dest) :
    hasQuota s q.source = true ∧ ownedPending s l = some r := by
  rcases decideEntry_cases s q l with ⟨_, e⟩ | e <;> rw [e] at h
  · cases h
  · rcases pacing_cases s q l (destinations s q.source l.entry.action) with
      ⟨_, e⟩ | ⟨_, -, e⟩ | ⟨r', owned, quota, e⟩ | ⟨r', rest, -, -, -, -, e⟩ <;> rw [e] at h
    · cases h
    · cases h
    · obtain ⟨rfl, -⟩ : r' = r ∧ _ := by simpa using h
      exact ⟨quota, owned⟩
    · cases h

/-- Quota left on an OPEN port (R56). -/
theorem load_lt_of_hasQuota {s : State} {p : PortNo} (h : hasQuota s p = true)
    (opened : (s.port p).state = .opened) :
    ticketsOwned s p + (s.port p).countedNotices < (s.port p).quota := by
  unfold hasQuota at h
  rw [opened] at h
  exact of_decide_eq_true h

theorem createTicket_frame (r : RecNo) (h : Held) (s : State) :
    (createTicket r h s).qp = s.qp ∧
    (createTicket r h s).rlu.records = (s.setRecord r ⟨(s.record r).serial + 1#4, .pending h⟩).rlu.records := by
  unfold createTicket
  exact ⟨by rw [(setTicketField_frame _ _ _).1]; rfl, by rw [(setTicketField_frame _ _ _).2]⟩

theorem supersedeTicket_frame (r : RecNo) (h : Held) (p : PortNo) (tag : Byte) (ident : Ident) (s : State) :
    (supersedeTicket r h p tag ident s).qp = (place h.owner (.superseded (s.ticketId r) h.tag) s).qp ∧
    (supersedeTicket r h p tag ident s).rlu = (s.setRecord r ⟨(s.record r).serial + 1#4,
      .pending { h with owner := p, tag := tag, ident := ident }⟩).rlu := by
  unfold supersedeTicket
  exact ⟨by rw [(setTicketField_frame _ _ _).1]; rfl, by rw [(setTicketField_frame _ _ _).2]; rfl⟩

/-- The new ticket of a port with quota left (R56, R57). -/
theorem ports_createTicket {s : State} (hs : PortsSound s) {r : RecNo} {h : Held}
    (opened : (s.port h.owner).state = .opened) (quota : hasQuota s h.owner = true) :
    PortsSound (createTicket r h s) := by
  obtain ⟨qp, records⟩ := createTicket_frame r h s
  refine (portsSound_iff _).2 (fun p => ?_)
  rw [ticketsOwned_of_records records,
    show (createTicket r h s).port p = s.port p by simp only [State.port, qp]]
  have count := ticketsOwned_setRecord s r ⟨(s.record r).serial + 1#4, .pending h⟩ p
  rw [ownedBy_pending] at count
  have within := hs.within p
  by_cases e : h.owner = p
  · subst e
    have left := load_lt_of_hasQuota quota opened
    simp only [decide_true, Bool.toNat_true] at count
    refine ⟨within.bounded, fun c => absurd (opened.symm.trans c) (by decide), fun _ => by omega⟩
  · simp only [e, decide_false, Bool.toNat_false] at count
    exact within.fewer (by omega)

/-- A superseded ticket: its old owner's load keeps the notice, and its new owner has quota left (R56, R58). -/
theorem ports_supersedeTicket {s : State} (hs : PortsSound s) {r : RecNo} {h : Held} {p : PortNo}
    (tag : Byte) (ident : Ident) (pending : (s.record r).body = .pending h)
    (opened : (s.port p).state = .opened) (quota : hasQuota s p = true) :
    PortsSound (supersedeTicket r h p tag ident s) := by
  obtain ⟨qp, rlu⟩ := supersedeTicket_frame r h p tag ident s
  refine (portsSound_iff _).2 (fun x => ?_)
  rw [ticketsOwned_of_records (congrArg ReleaseUnit.records rlu),
    show (supersedeTicket r h p tag ident s).port x
      = (place h.owner (.superseded (s.ticketId r) h.tag) s).port x by simp only [State.port, qp],
    place_eq, State.port_setPort]
  have count := ticketsOwned_setRecord s r ⟨(s.record r).serial + 1#4,
    .pending { h with owner := p, tag := tag, ident := ident }⟩ x
  rw [pending, ownedBy_pending, ownedBy_pending] at count
  have within := hs.within x
  have left := load_lt_of_hasQuota quota opened
  split
  · rename_i e; subst e
    simp only [decide_true, Bool.toNat_true] at count
    have ownerOpened := within.opened (by
      have : (decide (p = h.owner)).toNat ≤ 1 := Bool.toNat_le _
      rw [Nat.pos_iff_ne_zero, Ne, ticketsOwned_eq_zero]
      intro none
      have := none r
      simp [pending] at this)
    refine within.placed ownerOpened nofun ?_
    have load := within.quota ownerOpened
    by_cases same : p = h.owner
    · subst same
      simp only [decide_true, Bool.toNat_true] at count
      show _ + _ + 1 ≤ _
      omega
    · simp only [same, decide_false, Bool.toNat_false] at count
      show _ + _ + 1 ≤ _
      omega
  · rename_i other
    simp only [other, decide_false, Bool.toNat_false] at count
    by_cases same : p = x
    · subst same
      simp only [decide_true, Bool.toNat_true] at count
      exact ⟨within.bounded, fun c => absurd (opened.symm.trans c) (by decide), fun _ => by omega⟩
    · simp only [same, decide_false, Bool.toNat_false] at count
      exact within.fewer (by omega)

theorem answers_place_notice {b : OutBody} (notice : b.isNotice = true) (p x : PortNo) (s : State) :
    ((place p b s).port x).ready = (s.port x).ready := by
  rw [place_eq, State.port_setPort]
  split
  · rename_i e; subst e
    have : ((s.port p).placedAll [b]).state = (s.port p).state := rfl
    simp [Port.ready, placedAll_one_answers, notice, this]
  · rfl

theorem ready_of_qp {s t : State} (qp : t.qp = s.qp) {p : PortNo} (h : (s.port p).ready = true) :
    (t.port p).ready = true := by simpa only [State.port, qp] using h

/-- The claims and the answer of a lookup that was granted to a ready port. -/
theorem ports_applyVerdict {s : State} (hs : PortsSound s) {q : Query} (tag : Byte) (i : SlotNo) (l : LiveEntry)
    {v : Verdict} (hv : decideEntry s q l = v) (ready : (s.port q.source).ready = true) :
    PortsSound (applyVerdict q tag i l v s) := by
  have opened := ((Port.ready_iff _).1 ready).1
  have placed : ∀ {u : State} {b : OutBody}, PortsSound u → (u.port q.source).ready = true →
      b.isNotice = false → PortsSound (place q.source b u) := fun h r n => h.answer r n
  unfold applyVerdict
  cases v with
  | drop reason dest =>
    dsimp only
    have same : ∀ u : State, u.qp = s.qp → u.rlu = s.rlu →
        PortsSound (place q.source (.drop tag reason l.entry.action.label) u) := by
      intro u qp rlu
      refine placed (hs.of_eq qp (by rw [rlu])) ?_ rfl
      exact ready_of_qp qp ready
    split
    · refine same _ ?_ ?_
      · rw [(spendNow_frame _ _).1]; split <;> rfl
      · rw [(spendNow_frame _ _).2.1]; split <;> rfl
    · refine same _ ?_ ?_
      · split <;> rfl
      · split <;> rfl
  | route dest paced =>
    dsimp only
    have same : ∀ u : State, u.qp = s.qp → u.rlu = s.rlu → PortsSound (place q.source
        (.route tag l.entry.action.label dest (identOut l q) (generationByte s)) u) := by
      intro u qp rlu
      refine placed (hs.of_eq qp (by rw [rlu])) ?_ rfl
      exact ready_of_qp qp ready
    split
    · refine same _ ?_ ?_
      · rw [(spendNow_frame _ _).1]; split <;> rfl
      · rw [(spendNow_frame _ _).2.1]; split <;> rfl
    · refine same _ ?_ ?_
      · split <;> rfl
      · split <;> rfl
  | create r dest =>
    dsimp only
    have counted : PortsSound (s.setBody i (.live (l.matched s.ctu.now))) := hs.of_eq rfl rfl
    have created := ports_createTicket counted (r := r)
      (h := ⟨s.handleOf i, q.source, tag, q.ident, l.entry.windowOpen⟩) opened (decideEntry_create hv).1
    have qp := (createTicket_frame r ⟨s.handleOf i, q.source, tag, q.ident, l.entry.windowOpen⟩
      (s.setBody i (.live (l.matched s.ctu.now)))).1
    split
    · refine placed (created.of_eq (spendDeferred_frame _ _).1 (by rw [(spendDeferred_frame _ _).2])) ?_ rfl
      exact ready_of_qp ((spendDeferred_frame _ _).1.trans qp) ready
    · exact placed created (ready_of_qp qp ready) rfl
  | supersede r dest =>
    dsimp only
    have counted : PortsSound (s.setBody i (.live (l.matched s.ctu.now))) := hs.of_eq rfl rfl
    split
    · rename_i h pending
      have handed := ports_supersedeTicket counted tag q.ident pending opened (decideEntry_supersede hv).1
      have still : ((supersedeTicket r h q.source tag q.ident
          (s.setBody i (.live (l.matched s.ctu.now)))).port q.source).ready = true := by
        have qp := (supersedeTicket_frame r h q.source tag q.ident
          (s.setBody i (.live (l.matched s.ctu.now)))).1
        simp only [State.port, qp]
        exact (answers_place_notice rfl _ _ _).trans ready
      split
      · refine placed (handed.of_eq (spendDeferred_frame _ _).1 (by rw [(spendDeferred_frame _ _).2])) ?_ rfl
        exact ready_of_qp (spendDeferred_frame _ _).1 still
      · exact placed handed still rfl
    · exact counted

theorem ports_answerLookup {s : State} (hs : PortsSound s) {q : Query} (tag : Byte)
    (ready : (s.port q.source).ready = true) : PortsSound (answerLookup q tag s) := by
  unfold answerLookup
  split
  · exact hs.answer ready rfl
  · split
    · split
      · exact ports_applyVerdict hs tag _ _ rfl ready
      · exact hs.answer ready rfl
    · exact hs.answer ready rfl

/-! ### Heads, cutovers and resets -/

theorem ports_takeAck {s : State} (hs : PortsSound s) {p : PortNo} (id : Half)
    (ready : (s.port p).ready = true) : PortsSound (takeAck p id s) := by
  unfold takeAck
  split
  · exact hs.answer ready rfl
  · split
    · split
      · exact ports_completeTicket hs _
      all_goals exact hs.answer ready rfl
    · exact hs.answer ready rfl

theorem ports_takeCancel {s : State} (hs : PortsSound s) {p : PortNo} (id : Half)
    (ready : (s.port p).ready = true) : PortsSound (takeCancel p id s) := by
  unfold takeCancel
  split
  · exact hs.answer ready rfl
  · split
    · split
      · exact (ports_completeTicket hs _).answer (ready_of_qp (completeTicket_frame _ s).1 ready) rfl
      · rename_i r _ _ _ _ _ _ offered
        refine PortsSound.answer ?_ ready rfl
        exact hs.of_fewer rfl (fun x => (ticketsOwned_sameOwner (by rw [offered]; rfl) rfl rfl x).le)
      · exact hs.answer ready rfl
    · exact hs.answer ready rfl

theorem ports_markSent {s : State} (hs : PortsSound s) (k : TicketId) : PortsSound (markSent k s) := by
  unfold markSent
  split
  · rename_i h c offered
    split
    · exact hs.of_fewer rfl (fun x => (ticketsOwned_sameOwner (by rw [offered]; rfl) rfl rfl x).le)
    · exact hs
  · exact hs

/-- A message that leaves an outbound queue leaves the port in its bounds (R133). -/
theorem Port.Within.left {q : Port} {n : Nat} (h : q.Within n) (opened : q.state = .opened) {m : OutMsg}
    {rest : List OutMsg} (out : q.outbound = m :: rest) (line : LineEnd) :
    { q with outbound := rest, line := line }.Within n := by
  have fewer : ∀ f : OutMsg → Bool, rest.countP f ≤ q.outbound.countP f := by
    intro f; rw [out, List.countP_cons]; omega
  refine ⟨⟨h.bounded.inbound, Nat.le_trans (fewer _) h.bounded.answers, h.bounded.quota, fun c => ?_⟩,
    h.closed, fun o => ?_⟩
  · exact absurd (opened.symm.trans c) (by decide)
  · exact Nat.le_trans (Nat.add_le_add_left (fewer _) n) (h.quota o)

/-- The tickets of a closing port have completed (R71). -/
theorem ticketsOwned_completeAll (s : State) (p : PortNo) :
    Completed (recordsOwned s p) s (completeAll (recordsOwned s p) s) ∧
      CompletionFrame s (completeAll (recordsOwned s p) s) ∧
      ticketsOwned (completeAll (recordsOwned s p) s) p = 0 := by
  have nodup : (recordsOwned s p).Nodup := (List.nodup_finRange 96).filter _
  have owned : ∀ r, r ∈ recordsOwned s p ↔ (s.record r).body.ownedBy p = true := by
    intro r; simp [recordsOwned]
  have held : ∀ r ∈ recordsOwned s p, (s.record r).body.held?.isSome = true := by
    intro r hr
    have := (owned r).1 hr
    unfold TicketBody.ownedBy at this
    cases hh : (s.record r).body.held? <;> simp_all
  obtain ⟨completed, frame⟩ := completed_completeAll nodup held
  refine ⟨completed, frame, ticketsOwned_eq_zero.2 (fun r => ?_)⟩
  rw [completed.records]
  split
  · rfl
  · rename_i other
    simpa [owned] using other

theorem ports_closePort {s : State} (hs : PortsSound s) (p : PortNo) :
    PortsSound (closePort p (completeAll (recordsOwned s p) s)) := by
  obtain ⟨-, frame, none⟩ := ticketsOwned_completeAll s p
  refine (ports_completeAll hs).setPort p ?_
  rw [none]
  refine ⟨⟨Nat.zero_le _, Nat.zero_le _, ?_, fun _ => ⟨rfl, rfl, rfl⟩⟩, fun _ => rfl, nofun⟩
  show ((completeAll (recordsOwned s p) s).port p).quota ≤ _
  simp only [State.port, frame.1]
  exact (hs.bounded p).quota

theorem ports_openPort {s : State} (hs : PortsSound s) {p : PortNo} {quota : Nat}
    (most : quota ≤ Config.maxQuota) (closed : (s.port p).state = .closed) : PortsSound
      (s.setPort p { s.port p with
        state := .opened
        quota := quota
        inbound := []
        outbound := [⟨false, .portUp s.ctu.device s.rtb.generation⟩]
        overrun := false
        receiver := .hunt }) := by
  refine hs.setPort p ⟨⟨Nat.zero_le _, ?_, most, nofun⟩, nofun, fun _ => ?_⟩
  · show 1 ≤ 8; omega
  · rw [hs.closed p closed]; exact Nat.zero_le _

theorem InnerEffect.ports {s t : State} (h : InnerEffect s t) (hs : PortsSound s) : PortsSound t := by
  cases h with
  | expire i => exact (ports_retire hs _ i).of_eq rfl rfl
  | due r h _ pending => exact ports_fallDue hs pending
  | timeout r => exact (ports_completeTicket hs r).of_eq rfl rfl
  | openWindow => exact hs.of_eq rfl rfl
  | queue p m opened room =>
    refine hs.setPort p ((hs.within p).link opened ?_ _ _ _)
    have left : (s.port p).inbound.length < 4 := room
    rw [List.length_append, List.length_singleton]
    omega
  | receiver p v opened =>
    exact hs.setPort p ((hs.within p).link opened (hs.bounded p).inbound _ _ _)
  | lookup q tag ready =>
    have pointed : PortsSound { s with pointer := q.source + 1 } := hs.of_eq rfl rfl
    exact ports_answerLookup (pointed.popInbound ready) tag ((ready_popInbound _ _ _).trans ready)
  | ack p id ready => exact ports_takeAck (hs.popInbound ready) id ((ready_popInbound _ _ _).trans ready)
  | cancel p id ready => exact ports_takeCancel (hs.popInbound ready) id ((ready_popInbound _ _ _).trans ready)
  | pong p tag ready => exact (hs.popInbound ready).answer ((ready_popInbound _ _ _).trans ready) rfl
  | leave p m rest line opened out => exact hs.setPort p ((hs.within p).left opened out line)
  | leaveRelease p m rest line k opened out =>
    exact ports_markSent (hs.setPort p ((hs.within p).left opened out line)) k
  | openPort p quota most closed => exact ports_openPort hs most closed
  | closePort p => exact ports_closePort hs p
  | collect i => exact hs.of_eq rfl rfl

/-- No port owns a ticket: what is left is each port in its own bounds. -/
theorem PortsSound.of_noTickets {t : State} (free : ∀ r, (t.record r).body = .free)
    (ports : ∀ p, (t.port p).Within 0) : PortsSound t := by
  refine (portsSound_iff t).2 (fun p => ?_)
  rw [ticketsOwned_eq_zero.2 (fun r => by rw [free]; rfl)]
  exact ports p

theorem ports_warmRestart {s : State} (hs : PortsSound s) : PortsSound (warmRestart s) := by
  refine .of_noTickets (fun r => ?_) (fun p => ?_)
  · simp [warmRestart, ReleaseUnit.restarted, State.record]
  · have port : (warmRestart s).port p = (s.port p).restarted s.rtb.generation := by
      simp [warmRestart, State.port]
    rw [port, Port.restarted]
    split
    · exact (hs.within p).fewer (Nat.zero_le _)
    · refine ⟨⟨Nat.zero_le _, ?_, (hs.bounded p).quota, fun c => ?_⟩, fun _ => rfl, fun _ => Nat.zero_le _⟩
      · show 1 ≤ 8; omega
      · rename_i opened; rw [opened] at c; cases c

theorem ports_hardResetTo (cause : ResetCause) (hold low : Bool) (s : State) :
    PortsSound (hardResetTo cause hold low s) := by
  refine .of_noTickets (fun r => ?_) (fun p => ?_)
  · simp [hardResetTo, ReleaseUnit.reset, State.record]
  · have port : (hardResetTo cause hold low s).port p = (s.port p).cutOff := by
      simp [hardResetTo, State.port]
    rw [port]
    exact ⟨⟨Nat.zero_le _, Nat.zero_le _, Nat.zero_le _, fun _ => ⟨rfl, rfl, rfl⟩⟩, fun _ => rfl, nofun⟩

theorem ports_applyOp {s : State} (hs : PortsSound s) (op : Op) : PortsSound (applyOp op s).1 := by
  cases target : op.target with
  | none =>
    cases op with
    | insert image =>
      show PortsSound (applyInsert image s).1
      unfold applyInsert
      split
      · exact hs.of_eq rfl rfl
      · exact hs
    | _ => cases target
  | some w =>
    cases named : s.namedLive w with
    | none => rw [applyOp_gone target named]; exact hs
    | some i =>
      cases op with
      | insert image => cases target
      | remove v =>
        obtain rfl := Option.some.inj target
        rw [applyOp_remove_some named]
        exact ports_retire hs .removed i
      | amend v image =>
        obtain rfl := Option.some.inj target
        rw [applyOp_amend_some named]
        have first := ports_withdrawOf hs .amended i
        rcases applyAmend_cases i (.ofImage image) s with ⟨l, -, e⟩ | e <;> simp only [e]
        · exact first.of_eq rfl rfl
        · exact first
      | renew v =>
        obtain rfl := Option.some.inj target
        rw [applyOp_renew_some named]
        simp only [applyRenew]
        split
        · exact hs.of_eq rfl rfl
        · exact hs

theorem ports_applyOps : ∀ {ops : List Op} {s : State}, PortsSound s → PortsSound (applyOps ops s).1
  | [], _, h => h
  | op :: rest, _, h => ports_applyOps (ops := rest) (ports_applyOp h op)

theorem HostEffect.ports {s u : State} (h : HostEffect s u) (hs : PortsSound s) : PortsSound u := by
  cases h with
  | inner h => exact h.ports hs
  | stop => exact ports_withdrawAll _ (hs.of_eq rfl rfl)
  | restart => exact ports_warmRestart hs
  | _ => exact hs.of_eq rfl rfl

theorem Effect.ports {x : Instr} {s t : State} (h : Effect x s t) (hs : PortsSound s) : PortsSound t := by
  cases h with
  | inner _ h => exact h.ports hs
  | reset => exact ports_hardResetTo _ _ _ s
  | memoryClear =>
    refine .of_noTickets (fun r => ?_) (fun p => ?_)
    · simp [ReleaseUnit.reset, State.record]
    · have port : ∀ t : State, t.qp = s.qp.map (fun q => { q with inbound := [], outbound := [] }) →
          t.port p = { s.port p with inbound := [], outbound := [] } := by
        intro t e; simp [State.port, e]
      rw [port _ rfl]
      exact ⟨⟨Nat.zero_le _, Nat.zero_le _, (hs.bounded p).quota,
        fun c => ⟨rfl, rfl, ((hs.bounded p).closed c).2.2⟩⟩, fun _ => rfl, fun _ => Nat.zero_le _⟩
  | supervision =>
    have withdrawn := ports_withdrawAll .fallback
      (rs := s.rlu.releaseList.filter (fun r => !ticketEssential s r))
      (s := { s with ctu := { s.ctu with device := .fallback, timer := none } }) (hs.of_eq rfl rfl)
    exact withdrawn.of_eq rfl rfl
  | cutoverDone => exact (ports_applyOps hs (ops := s.edu.ops)).of_eq rfl rfl
  | overrun p opened =>
    have marked := hs.setPort p ((hs.within p).link opened (hs.bounded p).inbound true
      (s.port p).receiver (s.port p).line)
    exact marked.of_eq rfl rfl
  | linkError p v opened =>
    have hunting := hs.setPort p ((hs.within p).link opened (hs.bounded p).inbound (s.port p).overrun
      v (s.port p).line)
    exact hunting.of_eq rfl rfl
  | host seq r u _ e => exact (e.ports hs).of_eq rfl rfl
  | _ => exact hs.of_eq rfl rfl

/-- Settles O55: every effect keeps every port in its bounds. -/
theorem stepKeepsPorts : Obligations.StepKeepsPorts := by
  intro s t hs step
  exact step_keeps (fun _ _ h => h.of_eq rfl rfl) (fun _ _ _ h => h.ports) step hs

end Sys2Proof.Machine
end

section
/-!
What every step keeps of the tickets: the pool, the links between tickets and entries, the gate of the PENDING
tickets, and the shape of the entries.
-/

namespace Sys2Proof.Machine

/-! ### Reading the pool and the links -/

theorem TicketBody.free_iff (b : TicketBody) : b.isFree = true ↔ b = .free := by
  cases b <;> simp [TicketBody.isFree]

theorem TicketBody.pending_iff (b : TicketBody) : b.isPending = true ↔ ∃ h, b = .pending h := by
  cases b <;> simp [TicketBody.isPending]

theorem TicketBody.held_iff (b : TicketBody) : (∃ h, b.held? = some h) ↔ b.isFree = false := by
  cases b <;> simp [TicketBody.held?, TicketBody.isFree]

/-- A ticket is PENDING or OFFERED. -/
theorem TicketBody.pending_or_offered {b : TicketBody} (h : b.isFree = false) :
    b.isPending = true ∨ b.isOffered = true := by
  cases b <;> simp_all [TicketBody.isPending, TicketBody.isOffered, TicketBody.isFree]

/-- The slot that owns a record's ticket holds an entry (R14). -/
theorem entry_of_ticket {b : SlotBody} {k : TicketId} (h : b.ticket? = some k) : ∃ e, b.entry? = some e := by
  cases b <;> simp_all [SlotBody.ticket?, SlotBody.entry?]

section
variable {s : State}

/-- The ticket an entry names is in use, and holds the entry's handle. -/
theorem TicketsLinked.named (hs : TicketsLinked s) {i : SlotNo} {k : TicketId}
    (h : (s.slot i).body.ticket? = some k) :
    k = s.ticketId k.number ∧ (s.record k.number).body.isFree = false ∧
      ∃ x, (s.record k.number).body.held? = some x ∧ x.handle = s.handleOf i := by
  obtain ⟨e, x, hx, hh⟩ := hs.field i k h
  exact ⟨e, (TicketBody.held_iff _).1 ⟨x, hx⟩, x, hx, hh⟩

/-- No two slots name one record. -/
theorem TicketsLinked.slot_unique (hs : TicketsLinked s) {i j : SlotNo} {k l : TicketId}
    (h : (s.slot i).body.ticket? = some k) (h' : (s.slot j).body.ticket? = some l)
    (same : k.number = l.number) : i = j := by
  obtain ⟨-, -, x, hx, e⟩ := hs.named h
  obtain ⟨-, -, y, hy, e'⟩ := hs.named h'
  rw [same, hy] at hx
  obtain rfl := Option.some.inj hx
  have := e.symm.trans e'
  exact congrArg Handle.slot this

end

/-! ### Changes that the tickets do not see -/

/-- Two records stand for the same ticket in the same state, or for none. -/
structure TicketRecord.Same (a b : TicketRecord) : Prop where
  serial  : b.serial = a.serial
  free    : b.body.isFree = a.body.isFree
  pending : b.body.isPending = a.body.isPending
  handle  : b.body.held?.map Held.handle = a.body.held?.map Held.handle

theorem TicketRecord.Same.refl (a : TicketRecord) : a.Same a := ⟨rfl, rfl, rfl, rfl⟩

/-- The slots name the same tickets under the same handles. -/
abbrev SameFields (s t : State) : Prop := ∀ i, (t.slot i).body.ticket? = (s.slot i).body.ticket? ∧
  ((s.slot i).body.ticket?.isSome = true → (t.slot i).era = (s.slot i).era)

theorem PoolSound.of_same {s t : State} (hs : PoolSound s) (free : t.rlu.freeOrder = s.rlu.freeOrder)
    (listed : t.rlu.releaseList = s.rlu.releaseList) (records : ∀ r, (s.record r).Same (t.record r)) :
    PoolSound t where
  freeOnce := free ▸ hs.freeOnce
  freeExact r := by rw [free, (records r).free]; exact hs.freeExact r
  listedOnce := listed ▸ hs.listedOnce
  listedExact r := by rw [listed, (records r).pending]; exact hs.listedExact r

theorem TicketsLinked.of_same {s t : State} (hs : TicketsLinked s)
    (serials : ∀ r, (t.record r).serial = (s.record r).serial)
    (handles : ∀ r, (t.record r).body.held?.map Held.handle = (s.record r).body.held?.map Held.handle)
    (fields : SameFields s t) : TicketsLinked t := by
  have id : ∀ r, t.ticketId r = s.ticketId r := by intro r; simp only [State.ticketId, serials]
  constructor
  · intro i k hk
    rw [(fields i).1] at hk
    obtain ⟨e, h, hh, hi⟩ := hs.field i k hk
    have same := handles k.number
    rw [hh] at same
    obtain ⟨h', hh', e'⟩ := Option.map_eq_some_iff.1 same
    refine ⟨by rw [id]; exact e, h', hh', ?_⟩
    rw [e', hi]
    simp only [State.handleOf, (fields i).2 (by rw [hk]; rfl)]
  · intro r h hh
    have same := handles r
    rw [hh] at same
    obtain ⟨h', hh', e'⟩ := Option.map_eq_some_iff.1 same.symm
    obtain ⟨named, field⟩ := hs.record r h' hh'
    rw [e'] at named field
    refine ⟨?_, by rw [(fields _).1, id]; exact field⟩
    rw [named]
    simp only [State.handleOf, (fields h.handle.slot).2 (by rw [field]; rfl)]

theorem TicketsSound.of_same {s t : State} (hs : TicketsSound s) (free : t.rlu.freeOrder = s.rlu.freeOrder)
    (listed : t.rlu.releaseList = s.rlu.releaseList) (records : ∀ r, (s.record r).Same (t.record r))
    (fields : SameFields s t) : TicketsSound t :=
  ⟨hs.pool.of_same free listed records,
    hs.linked.of_same (fun r => (records r).serial) (fun r => (records r).handle) fields⟩

/-- The release unit stands, and the slots name the same tickets. -/
theorem TicketsSound.of_slots {s t : State} (hs : TicketsSound s) (rlu : t.rlu = s.rlu)
    (fields : SameFields s t) : TicketsSound t := by
  refine hs.of_same (by rw [rlu]) (by rw [rlu]) (fun r => ?_) fields
  rw [show t.record r = s.record r by simp only [State.record, rlu]]
  exact .refl _

theorem TicketsSound.of_eq {s t : State} (hs : TicketsSound s) (rlu : t.rlu = s.rlu)
    (slots : t.rtb.slots = s.rtb.slots) : TicketsSound t := by
  refine hs.of_slots rlu (fun i => ?_)
  rw [show t.slot i = s.slot i by simp only [State.slot, slots]]
  exact ⟨rfl, fun _ => rfl⟩

/-- A slot written with the same ticket under the same era, or with none where there was none. -/
theorem TicketsSound.setSlot {s : State} (hs : TicketsSound s) {i : SlotNo} {v : Slot}
    (ticket : v.body.ticket? = (s.slot i).body.ticket?)
    (era : (s.slot i).body.ticket?.isSome = true → v.era = (s.slot i).era) : TicketsSound (s.setSlot i v) := by
  refine hs.of_slots rfl (fun j => ?_)
  rw [State.slot_setSlot]
  split
  · rename_i e; subst e; exact ⟨ticket, era⟩
  · exact ⟨rfl, fun _ => rfl⟩

theorem TicketsSound.setBody {s : State} (hs : TicketsSound s) {i : SlotNo} {b : SlotBody}
    (ticket : b.ticket? = (s.slot i).body.ticket?) : TicketsSound (s.setBody i b) :=
  hs.setSlot ticket (fun _ => rfl)

/-- A record written with the same ticket in the same state. -/
theorem TicketsSound.setRecord {s : State} (hs : TicketsSound s) {r : RecNo} {v : TicketRecord}
    (same : (s.record r).Same v) : TicketsSound (s.setRecord r v) := by
  refine hs.of_same rfl rfl (fun x => ?_) (fun i => ⟨rfl, fun _ => rfl⟩)
  rw [State.record_setRecord]
  split
  · rename_i e; subst e; exact same
  · exact .refl _

/-- No ticket is in use and no slot names one. -/
theorem TicketsSound.of_none {t : State} (records : ∀ r, (t.record r).body = .free)
    (fields : ∀ i, (t.slot i).body.ticket? = none) (once : t.rlu.freeOrder.Nodup)
    (all : ∀ r, r ∈ t.rlu.freeOrder) (listed : t.rlu.releaseList = []) : TicketsSound t where
  pool := {
    freeOnce := once
    freeExact := fun r => by rw [records]; exact iff_of_true (all r) rfl
    listedOnce := by rw [listed]; exact .nil
    listedExact := fun r => by rw [records, listed]; simp [TicketBody.isPending] }
  linked := {
    field := fun i k h => by rw [fields] at h; cases h
    record := fun r h hh => by rw [records] at hh; cases hh }

/-! ### The completion and the withdrawal of tickets -/

theorem Slot.ticketDone_ticket (sl : Slot) : sl.ticketDone.body.ticket? = none := by
  obtain ⟨era, body⟩ := sl
  cases body with
  | retiring e c k => simp only [Slot.ticketDone]; split <;> rfl
  | _ => rfl

theorem tickets_completeTicket {s : State} (hs : TicketsSound s) (r : RecNo) :
    TicketsSound (completeTicket r s) := by
  cases hh : (s.record r).body.held? with
  | none => simp only [completeTicket, hh]; exact hs
  | some h =>
    have notFree : (s.record r).body.isFree = false := (TicketBody.held_iff _).1 ⟨h, hh⟩
    obtain ⟨named, field⟩ := hs.linked.record r h hh
    have record := record_freeRecord s r
    rw [completeTicket_eq hh]
    constructor
    · constructor
      · show (s.rlu.freeOrder ++ [r]).Nodup
        refine List.nodup_append.2 ⟨hs.pool.freeOnce, by simp, ?_⟩
        rintro a ha b hb rfl
        rw [List.mem_singleton] at hb; subst hb
        rw [hs.pool.freeExact, notFree] at ha; cases ha
      · intro x
        simp only [State.setSlot_rlu, freeOrder_freeRecord, State.setSlot_record, record, List.mem_append,
          List.mem_singleton, hs.pool.freeExact]
        by_cases e : r = x
        · subst e; simp [TicketBody.isFree]
        · simp [e, Ne.symm e]
      · exact hs.pool.listedOnce.filter _
      · intro x
        simp only [State.setSlot_rlu, releaseList_freeRecord, State.setSlot_record, record, List.mem_filter,
          hs.pool.listedExact, bne_iff_ne]
        by_cases e : r = x
        · subst e; simp [TicketBody.isPending]
        · simp [e, Ne.symm e]
    · constructor
      · intro j k hk
        rw [State.slot_setSlot] at hk
        by_cases ej : h.handle.slot = j
        · rw [if_pos ej, Slot.ticketDone_ticket] at hk; cases hk
        · rw [if_neg ej] at hk
          have other : r ≠ k.number := by
            rintro rfl
            exact ej (hs.linked.slot_unique field hk rfl)
          obtain ⟨e, x, hx, hi⟩ := hs.linked.field j k hk
          refine ⟨?_, x, ?_, ?_⟩
          · simp only [State.ticketId, State.setSlot_record, record, if_neg other]; exact e
          · simp only [State.setSlot_record, record, if_neg other]; exact hx
          · simp only [State.handleOf, State.slot_setSlot, if_neg ej]; exact hi
      · intro x y hy
        by_cases e : r = x
        · subst e
          simp only [State.setSlot_record, record, if_pos] at hy
          cases hy
        · simp only [State.setSlot_record, record, if_neg e] at hy
          obtain ⟨named', field'⟩ := hs.linked.record x y hy
          have apart : h.handle.slot ≠ y.handle.slot := by
            intro same
            rw [same, field'] at field
            have := congrArg TicketId.number (Option.some.inj field)
            exact e this.symm
          refine ⟨?_, ?_⟩
          · simp only [State.handleOf, State.slot_setSlot, if_neg apart]; exact named'
          · simp only [State.slot_setSlot, if_neg apart, State.ticketId, State.setSlot_record, record, if_neg e]
            exact field'

theorem tickets_withdraw {s : State} (hs : TicketsSound s) (reason : WithdrawReason) (r : RecNo) :
    TicketsSound (withdraw reason r s) := by
  unfold withdraw
  split
  · refine tickets_completeTicket ?_ r
    exact hs.of_eq rfl rfl
  all_goals exact hs

theorem tickets_withdrawAll (reason : WithdrawReason) : ∀ {rs : List RecNo} {s : State}, TicketsSound s →
    TicketsSound (withdrawAll reason rs s)
  | [], _, h => h
  | r :: rest, _, h => tickets_withdrawAll reason (rs := rest) (tickets_withdraw h reason r)

theorem tickets_completeAll : ∀ {rs : List RecNo} {s : State}, TicketsSound s →
    TicketsSound (completeAll rs s)
  | [], _, h => h
  | r :: rest, _, h => tickets_completeAll (rs := rest) (tickets_completeTicket h r)

theorem finishedSlot_ticket (era : BitVec 6) (c : RetireCause) (e : Entry) :
    (finishedSlot era c e).body.ticket? = none := by
  unfold finishedSlot; split <;> rfl

/-! ### The offer of a ticket -/

theorem shutForOffer_fields (i : SlotNo) (t : Tick) (s : State) : SameFields s (shutForOffer i t s) := by
  intro j
  rw [shutForOffer_eq, State.slot_setSlot]
  split
  · rename_i e; subst e
    cases h : (s.slot i).body <;> simp [h, SlotBody.ticket?, LiveEntry.shutUntil]
  · exact ⟨rfl, fun _ => rfl⟩

theorem tickets_offer {s : State} (hs : TicketsSound s) {r : RecNo} {h : Held}
    (pending : (s.record r).body = .pending h) (e : Entry) (dest : SegSet) :
    TicketsSound (offer r h e dest s) := by
  have offered : TicketsSound { s.setRecord r { s.record r with body := .offered h false none } with
      rlu := { (s.setRecord r { s.record r with body := .offered h false none }).rlu with
        releaseList := s.rlu.releaseList.filter (fun x => x != r) } } := by
    have record : ∀ x, State.record { s.setRecord r { s.record r with body := .offered h false none } with
      rlu := { (s.setRecord r { s.record r with body := .offered h false none }).rlu with
        releaseList := s.rlu.releaseList.filter (fun x => x != r) } } x
        = if r = x then { s.record r with body := .offered h false none } else s.record x :=
      fun x => State.record_setRecord s r x _
    refine ⟨⟨hs.pool.freeOnce, fun x => ?_, hs.pool.listedOnce.filter _, fun x => ?_⟩,
      hs.linked.of_same (fun x => ?_) (fun x => ?_) (fun i => ⟨rfl, fun _ => rfl⟩)⟩
    · rw [record]
      refine (hs.pool.freeExact x).trans ?_
      split
      · rename_i e; subst e; simp [pending, TicketBody.isFree]
      · rfl
    · rw [record, List.mem_filter, hs.pool.listedExact, bne_iff_ne]
      split
      · rename_i e; subst e; simp [TicketBody.isPending]
      · rename_i e; simp [Ne.symm e]
    · rw [record]; split
      · rename_i e; subst e; rfl
      · rfl
    · rw [record]; split
      · rename_i e; subst e; simp [pending, TicketBody.held?]
      · rfl
  have shut := offered.of_slots (shutForOffer_frame h.handle.slot
    (s.ctu.now + e.action.paceInterval.setWidth 32) _).2 (shutForOffer_fields _ _ _)
  exact shut.of_eq rfl rfl

/-! ### The creation and the supersede of a ticket -/

theorem perm_joinReleaseList (now : Tick) (due : RecNo → Tick) (r : RecNo) :
    ∀ list : List RecNo, (joinReleaseList now due r list).Perm (r :: list)
  | [] => .refl _
  | x :: rest => by
    rw [joinReleaseList]
    split
    · exact ((perm_joinReleaseList now due r rest).cons x).trans (.swap _ _ _)
    · exact .refl _

/-- A new ticket of a LIVE entry, part by part (R57). -/
theorem createTicket_eq {s : State} {r : RecNo} {h : Held} {l : LiveEntry}
    (live : (s.slot h.handle.slot).body = .live l) : createTicket r h s = { s with
      rlu := { records := s.rlu.records.set r.val ⟨(s.record r).serial + 1#4, .pending h⟩
               freeOrder := s.rlu.freeOrder.tail
               releaseList := joinReleaseList s.ctu.now
                 (s.setRecord r ⟨(s.record r).serial + 1#4, .pending h⟩).dueOf r s.rlu.releaseList }
      rtb := (s.setSlot h.handle.slot ⟨(s.slot h.handle.slot).era,
        .live { l with ticket := some (s.nextTicketId r) }⟩).rtb } := by
  unfold createTicket
  exact setTicketField_eq _ live

theorem record_createTicket {s : State} {r : RecNo} {h : Held} {l : LiveEntry}
    (live : (s.slot h.handle.slot).body = .live l) (x : RecNo) : (createTicket r h s).record x
      = if r = x then ⟨(s.record r).serial + 1#4, .pending h⟩ else s.record x := by
  rw [createTicket_eq live]
  exact State.record_setRecord s r x _

theorem slot_createTicket {s : State} {r : RecNo} {h : Held} {l : LiveEntry}
    (live : (s.slot h.handle.slot).body = .live l) (j : SlotNo) :
    (createTicket r h s).slot j = if h.handle.slot = j
      then ⟨(s.slot h.handle.slot).era, .live { l with ticket := some (s.nextTicketId r) }⟩ else s.slot j := by
  rw [createTicket_eq live]
  exact State.slot_setSlot s _ j _

/-- A new ticket, from the front of the free order, of a LIVE entry that owns none (R57). -/
theorem tickets_createTicket {s : State} (hs : TicketsSound s) {r : RecNo} {rest : List RecNo} {h : Held}
    {l : LiveEntry} (front : s.rlu.freeOrder = r :: rest) (handle : h.handle = s.handleOf h.handle.slot)
    (live : (s.slot h.handle.slot).body = .live l) (unowned : l.ticket = none) :
    TicketsSound (createTicket r h s) := by
  have free : (s.record r).body.isFree = true :=
    (hs.pool.freeExact r).1 (by rw [front]; exact List.mem_cons_self)
  have once : r ∉ rest ∧ rest.Nodup := List.nodup_cons.1 (front ▸ hs.pool.freeOnce)
  have unlisted : r ∉ s.rlu.releaseList := by
    rw [hs.pool.listedExact, (TicketBody.free_iff _).1 free]; nofun
  have record := record_createTicket (r := r) live
  have slot := slot_createTicket (r := r) live
  have freeOrder : (createTicket r h s).rlu.freeOrder = rest := by
    rw [createTicket_eq live]; exact congrArg List.tail front
  have perm : (createTicket r h s).rlu.releaseList.Perm (r :: s.rlu.releaseList) := by
    rw [createTicket_eq live]; exact perm_joinReleaseList _ _ _ _
  constructor
  · constructor
    · rw [freeOrder]; exact once.2
    · intro x
      rw [freeOrder, record]
      split
      · rename_i e; subst e; simp [once.1, TicketBody.isFree]
      · rename_i e
        rw [← hs.pool.freeExact, front]
        simp [Ne.symm e]
    · exact perm.nodup_iff.2 (List.nodup_cons.2 ⟨unlisted, hs.pool.listedOnce⟩)
    · intro x
      rw [perm.mem_iff, List.mem_cons, record, hs.pool.listedExact]
      split
      · rename_i e; subst e; simp [TicketBody.isPending]
      · rename_i e; simp [Ne.symm e]
  · constructor
    · intro j k hk
      rw [slot] at hk
      split at hk
      · rename_i ej
        obtain rfl : s.nextTicketId r = k := by simpa [SlotBody.ticket?] using hk
        refine ⟨?_, h, ?_, ?_⟩
        · simp [State.ticketId, State.nextTicketId, record]
        · simp [State.nextTicketId, record, TicketBody.held?]
        · rw [handle]; subst ej; simp [State.handleOf, slot]
      · rename_i ej
        obtain ⟨named, inUse, x, hx, hi⟩ := hs.linked.named hk
        have other : r ≠ k.number := by rintro rfl; rw [free] at inUse; cases inUse
        refine ⟨?_, x, ?_, ?_⟩
        · simp only [State.ticketId, record, if_neg other]; exact named
        · rw [record, if_neg other]; exact hx
        · simp only [State.handleOf, slot, if_neg ej]; exact hi
    · intro x y hy
      rw [record] at hy
      split at hy
      · rename_i ex; subst ex
        obtain rfl : h = y := by simpa [TicketBody.held?] using hy
        refine ⟨?_, ?_⟩
        · conv => lhs; rw [handle]
          simp [State.handleOf, slot]
        · simp [slot, SlotBody.ticket?, State.ticketId, State.nextTicketId, record]
      · rename_i ex
        obtain ⟨named, field⟩ := hs.linked.record x y hy
        have apart : h.handle.slot ≠ y.handle.slot := by
          intro same
          rw [← same, live] at field
          have : l.ticket = some (s.ticketId x) := field
          rw [unowned] at this; cases this
        refine ⟨?_, ?_⟩
        · simp only [State.handleOf, slot, if_neg apart]; exact named
        · rw [slot, if_neg apart]
          simp only [State.ticketId, record, if_neg ex]
          exact field

/-- A PENDING ticket of a LIVE entry handed on, part by part (R58). -/
theorem supersedeTicket_eq {s : State} {r : RecNo} {h : Held} {l : LiveEntry}
    (live : (s.slot h.handle.slot).body = .live l) (p : PortNo) (tag : Byte) (ident : Ident) :
    supersedeTicket r h p tag ident s = { place h.owner (.superseded (s.ticketId r) h.tag) s with
      rlu := (s.setRecord r ⟨(s.record r).serial + 1#4,
        .pending { h with owner := p, tag := tag, ident := ident }⟩).rlu
      rtb := (s.setSlot h.handle.slot ⟨(s.slot h.handle.slot).era,
        .live { l with ticket := some (s.nextTicketId r) }⟩).rtb } := by
  unfold supersedeTicket
  exact setTicketField_eq _ live

theorem record_supersedeTicket {s : State} {r : RecNo} {h : Held} {l : LiveEntry}
    (live : (s.slot h.handle.slot).body = .live l) (p : PortNo) (tag : Byte) (ident : Ident) (x : RecNo) :
    (supersedeTicket r h p tag ident s).record x = if r = x
      then ⟨(s.record r).serial + 1#4, .pending { h with owner := p, tag := tag, ident := ident }⟩
      else s.record x := by
  rw [supersedeTicket_eq live]
  exact State.record_setRecord s r x _

theorem slot_supersedeTicket {s : State} {r : RecNo} {h : Held} {l : LiveEntry}
    (live : (s.slot h.handle.slot).body = .live l) (p : PortNo) (tag : Byte) (ident : Ident) (j : SlotNo) :
    (supersedeTicket r h p tag ident s).slot j = if h.handle.slot = j
      then ⟨(s.slot h.handle.slot).era, .live { l with ticket := some (s.nextTicketId r) }⟩ else s.slot j := by
  rw [supersedeTicket_eq live]
  exact State.slot_setSlot s _ j _

/-- A PENDING ticket handed on keeps its place; its entry takes its new id (R58). -/
theorem tickets_supersedeTicket {s : State} (hs : TicketsSound s) {r : RecNo} {h : Held} {l : LiveEntry}
    (pending : (s.record r).body = .pending h) (live : (s.slot h.handle.slot).body = .live l)
    (p : PortNo) (tag : Byte) (ident : Ident) : TicketsSound (supersedeTicket r h p tag ident s) := by
  have held : (s.record r).body.held? = some h := by rw [pending]; rfl
  obtain ⟨handle, field⟩ := hs.linked.record r h held
  have record := record_supersedeTicket (r := r) live p tag ident
  have slot := slot_supersedeTicket (r := r) live p tag ident
  have free : (supersedeTicket r h p tag ident s).rlu.freeOrder = s.rlu.freeOrder := by
    rw [supersedeTicket_eq live]; rfl
  have listed : (supersedeTicket r h p tag ident s).rlu.releaseList = s.rlu.releaseList := by
    rw [supersedeTicket_eq live]; rfl
  constructor
  · refine ⟨free ▸ hs.pool.freeOnce, fun x => ?_, listed ▸ hs.pool.listedOnce, fun x => ?_⟩
    · rw [free, record, hs.pool.freeExact]
      split
      · rename_i e; subst e; simp [pending, TicketBody.isFree]
      · rfl
    · rw [listed, record, hs.pool.listedExact]
      split
      · rename_i e; subst e; simp [pending, TicketBody.isPending]
      · rfl
  · constructor
    · intro j k hk
      rw [slot] at hk
      split at hk
      · rename_i ej
        obtain rfl : s.nextTicketId r = k := by simpa [SlotBody.ticket?] using hk
        refine ⟨?_, { h with owner := p, tag := tag, ident := ident }, ?_, ?_⟩
        · simp [State.ticketId, State.nextTicketId, record]
        · simp [State.nextTicketId, record, TicketBody.held?]
        · show h.handle = _
          rw [handle]; subst ej; simp [State.handleOf, slot]
      · rename_i ej
        have other : r ≠ k.number := by
          rintro rfl
          exact ej (hs.linked.slot_unique field hk rfl)
        obtain ⟨named, x, hx, hi⟩ := hs.linked.field j k hk
        refine ⟨?_, x, ?_, ?_⟩
        · simp only [State.ticketId, record, if_neg other]; exact named
        · rw [record, if_neg other]; exact hx
        · simp only [State.handleOf, slot, if_neg ej]; exact hi
    · intro x y hy
      rw [record] at hy
      split at hy
      · rename_i ex; subst ex
        obtain rfl : { h with owner := p, tag := tag, ident := ident } = y := by
          simpa [TicketBody.held?] using hy
        refine ⟨?_, ?_⟩
        · show h.handle = _
          conv => lhs; rw [handle]
          simp [State.handleOf, slot]
        · simp [slot, SlotBody.ticket?, State.ticketId, State.nextTicketId, record]
      · rename_i ex
        obtain ⟨named, field'⟩ := hs.linked.record x y hy
        have apart : h.handle.slot ≠ y.handle.slot := by
          intro same
          rw [same, field'] at field
          exact ex (congrArg TicketId.number (Option.some.inj field)).symm
        refine ⟨?_, ?_⟩
        · simp only [State.handleOf, slot, if_neg apart]; exact named
        · rw [slot, if_neg apart]
          simp only [State.ticketId, record, if_neg ex]
          exact field'

end Sys2Proof.Machine
end

section
/-!
What every step keeps of the tickets, second part: how an operation lets PENDING tickets and RETIRING entries
fade, and the steps that make new ones.
-/

namespace Sys2Proof.Machine

theorem SlotBody.isLive_iff {b : SlotBody} : b.isLive = true ↔ ∃ l, b = .live l := by
  cases b <;> simp [SlotBody.isLive]

theorem SlotBody.isRetired_iff {b : SlotBody} : b.isRetired = true ↔ ∃ e c, b = .retired e c := by
  cases b <;> simp [SlotBody.isRetired]

/-- The record of the PENDING ticket that an entry owns (R41). -/
theorem ownedPending_eq_some {s : State} {l : LiveEntry} {r : RecNo} : ownedPending s l = some r ↔
    ∃ k h, l.ticket = some k ∧ k.number = r ∧ (s.record r).body = .pending h := by
  unfold ownedPending
  rw [Option.filter_eq_some_iff, Option.map_eq_some_iff, TicketBody.pending_iff]
  constructor
  · rintro ⟨⟨k, ticket, number⟩, h, body⟩; exact ⟨k, h, ticket, number, body⟩
  · rintro ⟨k, h, ticket, number, body⟩; exact ⟨⟨k, ticket, number⟩, h, body⟩

/-! ### PENDING tickets and RETIRING entries that fade -/

/-- The device stands, no ticket is newly PENDING and the entry of a PENDING one keeps its definition, a LIVE
entry keeps a deadline exactly with IDLE and FIXED, an entry that becomes RETIRED has another cause than
REMOVED and lacks QUIET, and one that becomes RETIRING has no PENDING ticket unless it is a SINGLE one that
was spent. -/
structure Fades (s t : State) : Prop where
  device   : t.ctu.device = s.ctu.device
  pending  : ∀ r h, (t.record r).body = .pending h → (s.record r).body = .pending h
  entry    : ∀ r h e', (t.record r).body = .pending h → (t.slot h.handle.slot).body.entry? = some e' →
    ∃ e, (s.slot h.handle.slot).body.entry? = some e ∧ e'.definition = e.definition
  live     : ∀ i m, (t.slot i).body = .live m →
    m.Timed ∨ ∃ l, (s.slot i).body = .live l ∧ (l.Timed → m.Timed)
  retiring : ∀ i e c k, (t.slot i).body = .retiring e c k →
    (∃ e0, (s.slot i).body = .retiring e0 c k ∧ e.definition = e0.definition) ∨
      (t.record k.number).body.isPending = false ∨ e.action.flags.single = true ∧ c = .spent
  retired  : ∀ i e c, (t.slot i).body = .retired e c →
    (s.slot i).body = .retired e c ∨ c ≠ .removed ∧ e.action.flags.quiet = false

theorem Fades.trans {s t u : State} (f : Fades s t) (g : Fades t u) : Fades s u where
  device := g.device.trans f.device
  pending r h hu := f.pending r h (g.pending r h hu)
  entry r h e'' hu he := by
    obtain ⟨e', he', d'⟩ := g.entry r h e'' hu he
    obtain ⟨e, he, d⟩ := f.entry r h e' (g.pending r h hu) he'
    exact ⟨e, he, d'.trans d⟩
  live i m hm := by
    rcases g.live i m hm with timed | ⟨l, hl, kept⟩
    · exact .inl timed
    · rcases f.live i l hl with timed | ⟨k, hk, kept'⟩
      · exact .inl (kept timed)
      · exact .inr ⟨k, hk, kept ∘ kept'⟩
  retiring i e c k hu := by
    rcases g.retiring i e c k hu with ⟨e0, ht, d⟩ | h
    · rcases f.retiring i e0 c k ht with ⟨e1, hs, d'⟩ | past | ⟨single, spent⟩
      · exact .inl ⟨e1, hs, d.trans d'⟩
      · refine .inr (.inl ?_)
        rw [Bool.eq_false_iff, Ne, TicketBody.pending_iff] at past ⊢
        rintro ⟨h, hh⟩
        exact past ⟨h, g.pending _ h hh⟩
      · exact .inr (.inr ⟨by rw [Entry.action, d]; exact single, spent⟩)
    · exact .inr h
  retired i e c hu := by
    rcases g.retired i e c hu with h | h
    · exact f.retired i e c h
    · exact .inr h

/-- An operation on entries and tickets that makes none PENDING and holds no entry RETIRING. -/
theorem Fades.of_inner {s t : State} (g : Inner s t)
    (pending : ∀ r h, (t.record r).body = .pending h → (s.record r).body = .pending h)
    (retiring : ∀ i e c k, (t.slot i).body = .retiring e c k →
      (∃ e0, (s.slot i).body = .retiring e0 c k ∧ e.definition = e0.definition) ∨
        (t.record k.number).body.isPending = false ∨ e.action.flags.single = true ∧ c = .spent) :
    Fades s t where
  device := by rw [g.rest.2.2.2]
  pending := pending
  entry r h e' _ he := by
    obtain ⟨e, h1, h2, -⟩ := (g.slots _).entry e' he
    exact ⟨e, h1, h2⟩
  live i m hm := .inr ((g.slots i).live m hm)
  retiring := retiring
  retired i e c h := (g.slots i).retired e c h

/-- An operation that leaves the records and holds no entry RETIRING. -/
theorem Fades.of_slots {s t : State} (g : Inner s t) (rlu : t.rlu = s.rlu)
    (retiring : ∀ i e c k, (t.slot i).body = .retiring e c k → (s.slot i).body = .retiring e c k) : Fades s t :=
  .of_inner g (fun r h hh => by simpa only [State.record, rlu] using hh)
    (fun i e c k h => .inl ⟨e, retiring i e c k h, rfl⟩)

theorem Fades.of_eq {s t : State} (rlu : t.rlu = s.rlu) (slots : t.rtb.slots = s.rtb.slots)
    (device : t.ctu.device = s.ctu.device) : Fades s t := by
  have slot : ∀ i, t.slot i = s.slot i := fun i => by simp only [State.slot, slots]
  have record : ∀ r, t.record r = s.record r := fun r => by simp only [State.record, rlu]
  refine ⟨device, fun r h hh => record r ▸ hh, fun r h e _ he => ⟨e, slot _ ▸ he, rfl⟩,
    fun i m hm => .inr ⟨m, slot i ▸ hm, id⟩, fun i e c k h => .inl ⟨e, slot i ▸ h, rfl⟩,
    fun i e c h => .inl (slot i ▸ h)⟩

/-- The shape of the entries, from an operation that lets tickets fade. -/
theorem Fades.shaped {s t : State} (f : Fades s t) (linked : TicketsLinked t) (hs : EntriesShaped s) :
    EntriesShaped t where
  live i m hm := by
    rcases f.live i m hm with timed | ⟨l, hl, kept⟩
    · exact timed
    · exact kept (hs.live i l hl)
  retiring i e c k h := by
    obtain ⟨-, inUse, -⟩ := linked.named (i := i) (k := k) (by rw [h]; rfl)
    rcases (t.record k.number).body.pending_or_offered inUse with pending | offered
    · refine .inr ⟨pending, ?_⟩
      rcases f.retiring i e c k h with ⟨e0, h0, d⟩ | past | spent
      · obtain ⟨x, hx⟩ := (TicketBody.pending_iff _).1 pending
        rcases hs.retiring i e0 c k h0 with was | ⟨-, single, spent⟩
        · rw [f.pending _ x hx] at was; cases was
        · exact ⟨by rw [Entry.action, d]; exact single, spent⟩
      · rw [pending] at past; cases past
      · exact spent
    · exact .inl offered
  retired i e c h := by
    rcases f.retired i e c h with was | ⟨cause, quiet⟩
    · exact hs.retired i e c was
    · refine ⟨?_, quiet⟩
      cases c with
      | removed => exact absurd rfl cause
      | expired => exact .inl rfl
      | spent => exact .inr rfl

theorem Fades.gated {s t : State} (f : Fades s t) (linked : TicketsLinked t) (hs : PendingSound s) :
    PendingSound t where
  gate r h := by
    obtain ⟨x, hx⟩ := (TicketBody.pending_iff _).1 h
    rw [f.device]
    exact hs.gate r ((TicketBody.pending_iff _).2 ⟨x, f.pending r x hx⟩)
  essential r h hh device := by
    rw [f.device] at device
    obtain ⟨-, field⟩ := linked.record r h (by rw [hh]; rfl)
    obtain ⟨e', he'⟩ := entry_of_ticket field
    obtain ⟨e, he, d⟩ := f.entry r h e' hh he'
    obtain ⟨e0, he0, flag⟩ := hs.essential r h (f.pending r h hh) device
    obtain rfl := Option.some.inj (he.symm.trans he0)
    exact ⟨e', he', by rw [Entry.action, d]; exact flag⟩

/-- An operation that keeps the tickets sound and lets them fade. -/
abbrev Fading (s t : State) : Prop := TicketsSound s → TicketsSound t ∧ Fades s t

theorem Fading.trans {s t u : State} (f : Fading s t) (g : Fading t u) : Fading s u := fun hs =>
  ⟨(g (f hs).1).1, (f hs).2.trans (g (f hs).1).2⟩

theorem Fading.of_eq {s t : State} (rlu : t.rlu = s.rlu) (slots : t.rtb.slots = s.rtb.slots)
    (device : t.ctu.device = s.ctu.device) : Fading s t := fun hs =>
  ⟨hs.of_eq rlu slots, .of_eq rlu slots device⟩

theorem Fading.refl (s : State) : Fading s s := .of_eq rfl rfl rfl

section
variable {s : State}

/-- A slot that evolves and is not held RETIRING. -/
theorem fading_setSlot {i : SlotNo} {v : Slot} (evolves : (s.slot i).Evolves v)
    (ticket : v.body.ticket? = (s.slot i).body.ticket?)
    (era : (s.slot i).body.ticket?.isSome = true → v.era = (s.slot i).era)
    (retiring : ∀ e c k, v.body ≠ .retiring e c k) : Fading s (s.setSlot i v) := fun hs =>
  ⟨hs.setSlot ticket era, .of_slots (inner_setSlot s evolves) rfl (fun j e c k h => by
    rw [State.slot_setSlot] at h
    split at h
    · exact absurd h (retiring e c k)
    · exact h)⟩

/-- A LIVE entry written back with its ticket. -/
theorem fading_setLive {i : SlotNo} {l m : LiveEntry} (live : (s.slot i).body = .live l)
    (definition : m.entry.definition = l.entry.definition) (serial : m.entry.serial = l.entry.serial)
    (ticket : m.ticket = l.ticket) (timed : l.Timed → m.Timed) : Fading s (s.setBody i (.live m)) := by
  refine fading_setSlot ?_ (by rw [live]; exact ticket) (fun _ => rfl) (by simp)
  conv => arg 1; rw [Slot.eta_body live]
  exact Slot.evolves_live definition serial timed

theorem fading_completeTicket (r : RecNo) : Fading s (completeTicket r s) := fun hs => by
  refine ⟨tickets_completeTicket hs r, ?_⟩
  cases hh : (s.record r).body.held? with
  | none => simp only [completeTicket, hh]; exact .of_eq rfl rfl rfl
  | some h =>
    refine .of_inner (inner_completeTicket s r) (fun x y hy => ?_) (fun i e c k hb => .inl ⟨e, ?_, rfl⟩)
    · rw [(completed_of_held hh).records] at hy
      split at hy
      · cases hy
      · exact hy
    · rw [(completed_of_held hh).slots] at hb
      split at hb
      · have := (s.slot i).ticketDone_ticket
        rw [hb] at this; cases this
      · exact hb

theorem fading_place (p : PortNo) (b : OutBody) : Fading s (place p b s) := .of_eq rfl rfl rfl

theorem fading_withdraw (reason : WithdrawReason) (r : RecNo) : Fading s (withdraw reason r s) := by
  unfold withdraw
  split
  · exact (fading_place _ _).trans (fading_completeTicket r)
  all_goals exact .refl s

end

theorem fading_withdrawAll (reason : WithdrawReason) : ∀ {rs : List RecNo} {s : State},
    Fading s (withdrawAll reason rs s)
  | [], s => .refl s
  | r :: rest, _ => (fading_withdraw reason r).trans (fading_withdrawAll reason (rs := rest))

theorem fading_completeAll : ∀ {rs : List RecNo} {s : State}, Fading s (completeAll rs s)
  | [], s => .refl s
  | r :: rest, _ => (fading_completeTicket r).trans (fading_completeAll (rs := rest))

theorem fading_withdrawOf {s : State} (reason : WithdrawReason) (i : SlotNo) :
    Fading s (withdrawOf reason i s) := by
  unfold withdrawOf
  split
  · exact fading_withdraw reason _
  · exact .refl s

/-! ### Retirement -/

/-- The ticket of a LIVE entry in a sound state: none, an OFFERED one, or a PENDING one that names the slot. -/
theorem TicketsLinked.ticket_cases {s : State} (hs : TicketsLinked s) {i : SlotNo} {l : LiveEntry}
    (live : (s.slot i).body = .live l) : l.ticket = none ∨
      (∃ k h x o, l.ticket = some k ∧ (s.record k.number).body = .offered h x o) ∨
      ∃ k h, l.ticket = some k ∧ (s.record k.number).body = .pending h ∧ h.handle.slot = i := by
  cases ticket : l.ticket with
  | none => exact .inl rfl
  | some k =>
    obtain ⟨-, -, h, held, handle⟩ := hs.named (i := i) (k := k) (by rw [live]; exact ticket)
    cases body : (s.record k.number).body with
    | free => rw [body] at held; cases held
    | offered h' x o => exact .inr (.inl ⟨k, h', x, o, rfl, body⟩)
    | pending h' =>
      obtain rfl : h' = h := by simpa [body, TicketBody.held?] using held
      exact .inr (.inr ⟨k, h', rfl, body, by rw [handle]; rfl⟩)

/-- The retirement of a spent entry leaves its ticket (R45, R80). -/
theorem retire_spent {s : State} {i : SlotNo} {l : LiveEntry} {k : TicketId}
    (live : (s.slot i).body = .live l) (ticket : l.ticket = some k) :
    retire .spent i s = s.setBody i (.retiring l.entry .spent k) := by
  unfold retire
  simp only [live, SlotBody.isLive, if_true, ticket]

/-- A slot held RETIRING with a ticket that is not PENDING, or a spent SINGLE entry's. -/
theorem fading_setRetiring {s : State} {i : SlotNo} {l : LiveEntry} {k : TicketId} {c : RetireCause}
    (live : (s.slot i).body = .live l) (ticket : l.ticket = some k)
    (past : (s.record k.number).body.isPending = false ∨ l.entry.action.flags.single = true ∧ c = .spent) :
    Fading s (s.setBody i (.retiring l.entry c k)) := fun hs => by
  refine ⟨hs.setBody (by rw [live]; exact ticket.symm), .of_inner (inner_setBody s ?_) (fun r h hh => hh) ?_⟩
  · conv => arg 1; rw [Slot.eta_body live]
    exact Slot.evolves_retiring c k rfl rfl rfl
  · intro j e c' k' h
    rw [State.slot_setBody] at h
    split at h
    · obtain ⟨rfl, rfl, rfl⟩ : l.entry = e ∧ c = c' ∧ k = k' := by simpa using h
      exact .inr past
    · exact .inl ⟨e, h, rfl⟩

/-- An entry without a ticket whose retirement finishes. -/
theorem fading_finish {s : State} {i : SlotNo} {l : LiveEntry} (live : (s.slot i).body = .live l)
    (unowned : l.ticket = none) (c : RetireCause) :
    Fading s (s.setSlot i (finishedSlot (s.slot i).era c l.entry)) := by
  have none : (s.slot i).body.ticket? = none := by rw [live]; exact unowned
  refine fading_setSlot ?_ (by rw [finishedSlot_ticket, none]) (by rw [none]; nofun) (fun e c' k h => ?_)
  · conv => arg 1; rw [Slot.eta_body live]
    exact Slot.evolves_finished c rfl
  · have := finishedSlot_ticket (s.slot i).era c l.entry
    rw [h] at this; cases this

theorem retire_of_notLive {s : State} {i : SlotNo} (c : RetireCause) (h : (s.slot i).body.isLive = false) :
    retire c i s = s := by
  unfold retire
  rw [h]
  cases hb : (s.slot i).body with
  | live l => rw [hb] at h; cases h
  | _ => simp [hb]

/-- The retirement of an entry; one that is spent is a SINGLE entry (R45, R80). -/
theorem fading_retire {s : State} {c : RetireCause} {i : SlotNo}
    (single : c = .spent → ∀ l, (s.slot i).body = .live l → l.entry.action.flags.single = true) :
    Fading s (retire c i s) := fun hs => by
  cases h : (s.slot i).body.live? with
  | none =>
    rw [retire_of_notLive c (by cases hb : (s.slot i).body <;> simp_all [SlotBody.live?, SlotBody.isLive])]
    exact Fading.refl s hs
  | some l =>
    have live := live?_eq_some.1 h
    rcases hs.linked.ticket_cases live with
      unowned | ⟨k, h, x, o, ticket, offered⟩ | ⟨k, h, ticket, pending, slot⟩
    · rw [retire_none c live unowned]
      exact fading_finish live unowned c hs
    · rw [retire_offered c live ticket offered]
      exact fading_setRetiring live ticket (.inl (by rw [offered]; rfl)) hs
    · have withdrawn : ∀ reason : WithdrawReason,
          c = .removed ∧ reason = .removed ∨ c = .expired ∧ reason = .expired →
          TicketsSound (retire c i s) ∧ Fades s (retire c i s) := by
        intro reason hc
        obtain ⟨e, slots⟩ := withdrawOf_pending reason live ticket pending slot
        have now := slots i
        rw [if_pos rfl, e] at now
        have finish := fading_finish (s := withdraw reason k.number s) (i := i)
          (l := { l with ticket := none }) (by rw [now]) rfl c
        rw [now] at finish
        rw [retire_pending hc live ticket pending slot]
        exact (fading_withdraw reason k.number).trans finish hs
      cases c with
      | removed => exact withdrawn .removed (.inl ⟨rfl, rfl⟩)
      | expired => exact withdrawn .expired (.inr ⟨rfl, rfl⟩)
      | spent =>
        rw [retire_spent live ticket]
        exact fading_setRetiring live ticket (.inr ⟨single rfl l live, rfl⟩) hs

/-! ### Offers and the link -/

theorem offer_rlu (r : RecNo) (h : Held) (e : Entry) (dest : SegSet) (s : State) :
    (offer r h e dest s).rlu = { (s.setRecord r { s.record r with body := .offered h false none }).rlu with
      releaseList := s.rlu.releaseList.filter (fun x => x != r) } := by
  rw [offer, place_rlu, (shutForOffer_frame _ _ _).2]
  rfl

theorem record_offer (r : RecNo) (h : Held) (e : Entry) (dest : SegSet) (s : State) (x : RecNo) :
    (offer r h e dest s).record x
      = if r = x then { s.record r with body := .offered h false none } else s.record x := by
  simp only [State.record, offer_rlu]
  exact State.record_setRecord s r x _

/-- An offer holds no entry RETIRING, and writes no definition (R60). -/
theorem shutForOffer_retiring {i j : SlotNo} {t : Tick} {s : State} {e : Entry} {c : RetireCause} {k : TicketId}
    (h : ((shutForOffer i t s).slot j).body = .retiring e c k) :
    ∃ e0, (s.slot j).body = .retiring e0 c k ∧ e.definition = e0.definition := by
  rw [shutForOffer_eq, State.slot_setSlot] at h
  split at h
  · rename_i same; subst same
    cases was : (s.slot i).body with
    | retiring e0 c0 k0 =>
      simp only [was] at h
      obtain ⟨rfl, rfl, rfl⟩ : { e0 with windowOpen := t } = e ∧ c0 = c ∧ k0 = k := by simpa using h
      exact ⟨e0, rfl, rfl⟩
    | _ => simp [was] at h
  · exact ⟨e, h, rfl⟩

theorem fading_fallDue {s : State} {r : RecNo} {h : Held} (pending : (s.record r).body = .pending h) :
    Fading s (fallDue r h s) := by
  unfold fallDue
  split
  · split
    · exact fading_withdraw _ r
    · refine fun hs => ⟨tickets_offer hs pending _ _, .of_inner (inner_offer s r h _ _) (fun x y hy => ?_)
        (fun i e' c k hb => .inl ?_)⟩
      · rw [record_offer] at hy
        split at hy
        · cases hy
        · exact hy
      · rw [offer, place_slot] at hb
        obtain ⟨e0, h0, same⟩ := shutForOffer_retiring hb
        exact ⟨e0, h0, same⟩
  · exact .refl s

/-- A record written with the same ticket in the same state. -/
theorem fading_setRecord {s : State} {r : RecNo} {v : TicketRecord} (same : (s.record r).Same v)
    (offered : v.body.isPending = false) : Fading s (s.setRecord r v) := fun hs => by
  refine ⟨hs.setRecord same, .of_inner (inner_releaseUnit s _) (fun x h hh => ?_)
    (fun i e c k h => .inl ⟨e, h, rfl⟩)⟩
  rw [State.record_setRecord] at hh
  split at hh
  · rw [hh] at offered; cases offered
  · exact hh

theorem fading_markSent (k : TicketId) (s : State) : Fading s (markSent k s) := by
  unfold markSent
  split
  · rename_i h c offered
    split
    · exact fading_setRecord ⟨rfl, by rw [offered]; rfl, by rw [offered]; rfl, by rw [offered]; rfl⟩ rfl
    · exact .refl s
  · exact .refl s

theorem fading_takeAck (p : PortNo) (id : Half) (s : State) : Fading s (takeAck p id s) := by
  unfold takeAck
  split
  · exact fading_place _ _
  · split
    · split
      · exact fading_completeTicket _
      all_goals exact fading_place _ _
    · exact fading_place _ _

theorem fading_takeCancel (p : PortNo) (id : Half) (s : State) : Fading s (takeCancel p id s) := by
  unfold takeCancel
  split
  · exact fading_place _ _
  · split
    · split
      · exact (fading_completeTicket _).trans (fading_place _ _)
      · rename_i offered
        refine Fading.trans (fading_setRecord ?_ rfl) (fading_place _ _)
        exact ⟨rfl, by rw [offered]; rfl, by rw [offered]; rfl, by rw [offered]; rfl⟩
      · exact fading_place _ _
    · exact fading_place _ _

/-- A retired entry that is collected names no ticket (R86). -/
theorem fading_collect {s : State} {i : SlotNo} (retired : (s.slot i).body.isRetired = true) :
    Fading s (s.setSlot i ⟨(s.slot i).era + 1#6, .free⟩) := by
  obtain ⟨e, c, h⟩ := SlotBody.isRetired_iff.1 retired
  have none : (s.slot i).body.ticket? = none := by rw [h]; rfl
  have notFree : (s.slot i).body.isFree = false := by rw [h]; rfl
  exact fading_setSlot (Slot.evolves_free notFree) none.symm (by simp [none]) (by simp)

/-! ### Lookups -/

/-- A change that keeps the tickets, the gate of the PENDING ones and the shape of the entries. -/
abbrev Kept (s t : State) : Prop := TicketsSound s → PendingSound s →
  TicketsSound t ∧ PendingSound t ∧ (EntriesShaped s → EntriesShaped t)

theorem Fading.kept {s t : State} (f : Fading s t) : Kept s t := fun hs gated =>
  have ⟨sound, fades⟩ := f hs
  ⟨sound, fades.gated sound.linked gated, fades.shaped sound.linked⟩

theorem Kept.of_eq {s t : State} (rlu : t.rlu = s.rlu) (slots : t.rtb.slots = s.rtb.slots)
    (device : t.ctu.device = s.ctu.device) : Kept s t :=
  Fading.kept (.of_eq rlu slots device)

theorem Kept.trans {s t u : State} (f : Kept s t) (g : Kept t u) : Kept s u := fun hs gated =>
  have ⟨sound, gated', shaped⟩ := f hs gated
  have ⟨sound', gated'', shaped'⟩ := g sound gated'
  ⟨sound', gated'', shaped' ∘ shaped⟩

/-- One record becomes PENDING for a LIVE entry, ESSENTIAL in FALLBACK, and nothing else of the tickets and the
entries changes but the ticket of that entry. -/
structure Defers (r : RecNo) (i : SlotNo) (s t : State) : Prop where
  device  : t.ctu.device = s.ctu.device
  running : s.ctu.device = .active ∨ s.ctu.device = .fallback
  others  : ∀ x, x ≠ r → t.record x = s.record x
  new     : ∃ h, (t.record r).body = .pending h ∧ h.handle.slot = i
  slots   : ∀ j, j ≠ i → t.slot j = s.slot j
  live    : ∃ l m, (s.slot i).body = .live l ∧ (t.slot i).body = .live m ∧ m.entry = l.entry ∧
    m.deadline = l.deadline ∧ (s.ctu.device = .fallback → l.entry.action.flags.essential = true)
  unnamed : ∀ j, j ≠ i → ∀ k, (s.slot j).body.ticket? = some k → k.number ≠ r

theorem Defers.kept {r : RecNo} {i : SlotNo} {s t : State} (d : Defers r i s t)
    (sound : TicketsSound s → TicketsSound t) : Kept s t := by
  intro hs gated
  obtain ⟨h, new, rfl⟩ := d.new
  obtain ⟨l, m, was, is, entry, deadline, essential⟩ := d.live
  refine ⟨sound hs, ⟨fun x hx => ?_, fun x h' hx device => ?_⟩, fun shaped => ⟨?_, ?_, ?_⟩⟩
  · rw [d.device]; exact d.running
  · rw [d.device] at device
    by_cases named : h'.handle.slot = h.handle.slot
    · exact ⟨m.entry, by rw [named, is]; rfl, by rw [entry]; exact essential device⟩
    · have other : x ≠ r := by
        rintro rfl
        rw [new] at hx
        obtain rfl := TicketBody.pending.inj hx
        exact named rfl
      rw [d.slots _ named]
      exact gated.essential x h' (d.others x other ▸ hx) device
  · intro j a ha
    by_cases e : j = h.handle.slot
    · subst e
      rw [is] at ha
      obtain rfl := SlotBody.live.inj ha
      rw [entry, deadline]
      exact shaped.live _ l was
    · exact shaped.live j a (d.slots j e ▸ ha)
  · intro j e c k hb
    by_cases same : j = h.handle.slot
    · subst same; rw [is] at hb; cases hb
    · rw [d.slots j same] at hb
      rw [d.others _ (d.unnamed j same k (by rw [hb]; rfl))]
      exact shaped.retiring j e c k hb
  · intro j e c hb
    by_cases same : j = h.handle.slot
    · subst same; rw [is] at hb; cases hb
    · exact shaped.retired j e c (d.slots j same ▸ hb)

theorem createTicket_ctu (r : RecNo) (h : Held) (s : State) : (createTicket r h s).ctu = s.ctu :=
  (inner_createTicket s r h).rest.2.2.2

theorem kept_createTicket {s : State} {r : RecNo} {h : Held} {l : LiveEntry}
    (running : s.ctu.device = .active ∨ s.ctu.device = .fallback)
    (front : ∃ rest, s.rlu.freeOrder = r :: rest) (handle : h.handle = s.handleOf h.handle.slot)
    (live : (s.slot h.handle.slot).body = .live l) (unowned : l.ticket = none)
    (essential : s.ctu.device = .fallback → l.entry.action.flags.essential = true) :
    Kept s (createTicket r h s) := by
  obtain ⟨rest, front⟩ := front
  have record := record_createTicket (r := r) live
  have slot := slot_createTicket (r := r) live
  refine fun hs => Defers.kept (r := r) (i := h.handle.slot) ?_
    (fun hs => tickets_createTicket hs front handle live unowned) hs
  have free : (s.record r).body.isFree = true :=
    (hs.pool.freeExact r).1 (by rw [front]; exact List.mem_cons_self)
  refine ⟨by rw [createTicket_ctu], running, fun x other => ?_, ⟨h, ?_, rfl⟩, fun j other => ?_,
    ⟨l, { l with ticket := some (s.nextTicketId r) }, live, ?_, rfl, rfl, essential⟩, fun j _ k named => ?_⟩
  · rw [record, if_neg (Ne.symm other)]
  · rw [record, if_pos rfl]
  · rw [slot, if_neg (Ne.symm other)]
  · rw [slot, if_pos rfl]
  · rintro rfl
    obtain ⟨-, inUse, -⟩ := hs.linked.named named
    rw [free] at inUse; cases inUse

theorem kept_supersedeTicket {s : State} {r : RecNo} {h : Held} {l : LiveEntry}
    (running : s.ctu.device = .active ∨ s.ctu.device = .fallback)
    (pending : (s.record r).body = .pending h) (live : (s.slot h.handle.slot).body = .live l)
    (essential : s.ctu.device = .fallback → l.entry.action.flags.essential = true)
    (p : PortNo) (tag : Byte) (ident : Ident) : Kept s (supersedeTicket r h p tag ident s) := by
  have record := record_supersedeTicket (r := r) live p tag ident
  have slot := slot_supersedeTicket (r := r) live p tag ident
  refine fun hs => Defers.kept (r := r) (i := h.handle.slot) ?_
    (fun hs => tickets_supersedeTicket hs pending live p tag ident) hs
  obtain ⟨-, field⟩ := hs.linked.record r h (by rw [pending]; rfl)
  refine ⟨by rw [(inner_supersedeTicket s r h p tag ident).rest.2.2.2], running, fun x other => ?_,
    ⟨{ h with owner := p, tag := tag, ident := ident }, ?_, rfl⟩, fun j other => ?_,
    ⟨l, { l with ticket := some (s.nextTicketId r) }, live, ?_, rfl, rfl, essential⟩, fun j other k named => ?_⟩
  · rw [record, if_neg (Ne.symm other)]
  · rw [record, if_pos rfl]
  · rw [slot, if_neg (Ne.symm other)]
  · rw [slot, if_pos rfl]
  · rintro rfl
    exact other (hs.linked.slot_unique named field rfl)

theorem fading_spendNow {s : State} {i : SlotNo} {l : LiveEntry} (live : (s.slot i).body = .live l)
    (single : l.entry.action.flags.single = true) : Fading s (spendNow i s) := by
  refine Fading.trans (fading_retire (fun _ m hm => ?_)) (.of_eq rfl rfl rfl)
  rw [live] at hm
  obtain rfl := SlotBody.live.inj hm
  exact single

theorem fading_spendDeferred {s : State} {i : SlotNo} {l : LiveEntry} (live : (s.slot i).body = .live l)
    (single : l.entry.action.flags.single = true) : Fading s (spendDeferred i s) := by
  unfold spendDeferred
  simp only [live]
  split
  · rename_i k ticket
    exact (fading_setRetiring live ticket (.inr ⟨single, rfl⟩)).trans (.of_eq rfl rfl rfl)
  · exact .refl s

/-- The claims of a match on a LIVE entry (R35). -/
theorem fading_counted {s : State} {i : SlotNo} {l : LiveEntry} (live : (s.slot i).body = .live l) :
    Fading s (s.setBody i (.live (l.matched s.ctu.now))) :=
  fading_setLive live rfl rfl rfl (fun t => t.matched _)

/-- A lookup decided on the LIVE entry that it matched. -/
theorem kept_applyVerdict {s : State} {q : Query} (tag : Byte) {i : SlotNo} {l : LiveEntry} {v : Verdict}
    (running : s.ctu.device = .active ∨ s.ctu.device = .fallback) (live : (s.slot i).body = .live l)
    (essential : s.ctu.device = .fallback → l.entry.action.flags.essential = true)
    (hv : decideEntry s q l = v) : Kept s (applyVerdict q tag i l v s) := by
  have counted := fading_counted live
  have isCounted : ((s.setBody i (.live (l.matched s.ctu.now))).slot i).body = .live (l.matched s.ctu.now) := by
    simp
  unfold applyVerdict
  cases v with
  | drop reason dest =>
    dsimp only
    refine Kept.trans ?_ (fading_place _ _).kept
    have raised : Fading (s.setBody i (.live (l.matched s.ctu.now)))
        (if reason = .noTicket then raise .ticketRefused (s.setBody i (.live (l.matched s.ctu.now)))
          else s.setBody i (.live (l.matched s.ctu.now))) := by
      split
      · exact .of_eq rfl rfl rfl
      · exact .refl _
    split
    · rename_i spent
      refine ((counted.trans raised).trans (fading_spendNow (l := l.matched s.ctu.now) ?_ spent.2)).kept
      split <;> exact isCounted
    · exact (counted.trans raised).kept
  | route dest paced =>
    dsimp only
    refine Kept.trans ?_ (fading_place _ _).kept
    cases paced with
    | false =>
      split
      · rename_i single; exact (counted.trans (fading_spendNow isCounted single)).kept
      · exact counted.kept
    | true =>
      have shut := counted.trans (fading_setLive
        (m := (l.matched s.ctu.now).shutUntil (s.ctu.now + l.entry.action.paceInterval.setWidth 32))
        isCounted rfl rfl rfl id)
      split
      · rename_i single
        exact (shut.trans (fading_spendNow (l := (l.matched s.ctu.now).shutUntil
          (s.ctu.now + l.entry.action.paceInterval.setWidth 32)) (by simp) single)).kept
      · exact shut.kept
  | create r dest =>
    dsimp only
    refine fun hs => Kept.trans ?_ (fading_place _ _).kept hs
    obtain ⟨-, front, unowned, unoffered⟩ := decideEntry_create hv
    have none : l.ticket = none := by
      rcases hs.linked.ticket_cases live with none | ⟨k, h, x, o, ticket, body⟩ | ⟨k, h, ticket, body, -⟩
      · exact none
      · simp [ownsOffered, ticket, body, TicketBody.isOffered] at unoffered
      · simp [ownedPending, ticket, body, TicketBody.isPending] at unowned
    have created := counted.kept.trans (kept_createTicket
      (h := ⟨s.handleOf i, q.source, tag, q.ident, l.entry.windowOpen⟩) running front
      (by simp [State.handleOf]) isCounted none essential)
    split
    · rename_i single
      have now := slot_createTicket (r := r)
        (h := ⟨s.handleOf i, q.source, tag, q.ident, l.entry.windowOpen⟩) isCounted i
      rw [if_pos (by rfl)] at now
      exact created.trans (fading_spendDeferred (congrArg Slot.body now) single).kept
    · exact created
  | supersede r dest =>
    dsimp only
    split
    · rename_i h pending
      refine fun hs => Kept.trans ?_ (fading_place _ _).kept hs
      obtain ⟨-, owned⟩ := decideEntry_supersede hv
      have at_i : h.handle.slot = i := by
        obtain ⟨k, h', ticket, rfl, body⟩ := ownedPending_eq_some.1 owned
        obtain rfl := TicketBody.pending.inj (pending.symm.trans body)
        obtain ⟨-, -, x, held, handle⟩ := hs.linked.named (i := i) (k := k) (by rw [live]; exact ticket)
        obtain rfl : h = x := by simpa [pending, TicketBody.held?] using held
        rw [handle]; rfl
      subst at_i
      have handed := counted.kept.trans
        (kept_supersedeTicket (s := s.setBody h.handle.slot (.live (l.matched s.ctu.now))) running pending
          isCounted essential q.source tag q.ident)
      split
      · rename_i single
        have now := slot_supersedeTicket (r := r) isCounted q.source tag q.ident h.handle.slot
        rw [if_pos rfl] at now
        exact handed.trans (fading_spendDeferred (congrArg Slot.body now) single).kept
      · exact handed
    · exact counted.kept

theorem search_live {s : State} {q : Query} {i : SlotNo} {l : LiveEntry} (h : search s q = some (i, l)) :
    (s.slot i).body = .live l ∧ matchesQuery s q l = true := by
  obtain ⟨listed, matched⟩ := List.mem_filter.1 (leastKey_mem h)
  exact ⟨mem_liveEntries.1 listed, matched⟩

theorem kept_answerLookup (q : Query) (tag : Byte) (s : State) : Kept s (answerLookup q tag s) := by
  unfold answerLookup
  split
  · exact (fading_place _ _).kept
  · split
    · rename_i running
      split
      · rename_i i l found
        obtain ⟨live, matched⟩ := search_live found
        refine kept_applyVerdict tag running live (fun device => ?_) rfl
        obtain ⟨awake, -⟩ := (matchesQuery_iff s q l).1 matched
        exact awake device
      · exact (fading_place _ _).kept
    · exact (fading_place _ _).kept

/-! ### Ops at cutover -/

/-- A slot whose PENDING tickets are gone takes a LIVE entry with a deadline of its lifetime kind. -/
theorem fading_setTimed {s : State} {i : SlotNo} {m : LiveEntry} (timed : m.Timed)
    (ticket : m.ticket = (s.slot i).body.ticket?)
    (past : ∀ k, m.ticket = some k → (s.record k.number).body.isPending = false) :
    Fading s (s.setBody i (.live m)) := fun hs => by
  refine ⟨hs.setBody ticket, rfl, fun r h hh => hh, fun r h e' hh he => ?_, fun j a ha => ?_,
    fun j e c k h => ?_, fun j e c h => ?_⟩
  · obtain ⟨-, field⟩ := hs.linked.record r h (show (s.record r).body.held? = some h by
      rw [show (s.record r).body = .pending h from hh]; rfl)
    have apart : i ≠ h.handle.slot := by
      rintro rfl
      have := past _ (ticket.trans field)
      rw [show ((s.record (s.ticketId r).number).body) = .pending h from hh] at this
      cases this
    rw [State.slot_setBody, if_neg apart] at he
    exact ⟨e', he, rfl⟩
  · rw [State.slot_setBody] at ha
    split at ha
    · obtain rfl := SlotBody.live.inj ha; exact .inl timed
    · exact .inr ⟨a, ha, id⟩
  · rw [State.slot_setBody] at h
    split at h
    · cases h
    · exact .inl ⟨e, h, rfl⟩
  · rw [State.slot_setBody] at h
    split at h
    · cases h
    · exact .inl h

theorem deadlineFrom_isSome (a : Action) (t : Tick) :
    (a.deadlineFrom t).isSome = true ↔ a.lifetimeKind = .idle ∨ a.lifetimeKind = .fixed := by
  unfold Action.deadlineFrom
  cases a.lifetimeKind <;> simp

theorem fading_applyInsert (image : List Byte) (s : State) : Fading s (applyInsert image s).1 := by
  cases h : lowestFree s with
  | none => rw [applyInsert_none h]; exact .refl s
  | some i =>
    rw [applyInsert_some h]
    have free := lowestFree_isFree h
    refine Fading.trans (fading_setTimed (i := i) (m := newEntry s (.ofImage image)) ?_ (by rw [free]; rfl)
      (by simp [newEntry]))
      (.of_eq rfl ?_ rfl)
    · exact deadlineFrom_isSome _ _
    · simp [takeSerial_eq]

/-- The withdrawal of an entry's PENDING ticket leaves it a ticket that is not PENDING, or none (R67). -/
theorem withdrawOf_live {s : State} (hs : TicketsLinked s) {i : SlotNo} {l : LiveEntry}
    (live : (s.slot i).body = .live l) (reason : WithdrawReason) :
    ∃ m, ((withdrawOf reason i s).slot i).body = .live m ∧
      ∀ k, m.ticket = some k → ((withdrawOf reason i s).record k.number).body.isPending = false := by
  rcases hs.ticket_cases live with none | ⟨k, h, x, o, ticket, body⟩ | ⟨k, h, ticket, body, slot⟩
  · have same : withdrawOf reason i s = s := by simp [withdrawOf, live, SlotBody.ticket?, none]
    rw [same]
    exact ⟨l, live, by simp [none]⟩
  · have same : withdrawOf reason i s = s := by
      simp [withdrawOf, live, SlotBody.ticket?, ticket, withdraw, body]
    rw [same]
    refine ⟨l, live, fun k' hk => ?_⟩
    obtain rfl := Option.some.inj (ticket.symm.trans hk)
    rw [body]; rfl
  · obtain ⟨-, slots⟩ := withdrawOf_pending reason live ticket body slot
    have now := slots i
    rw [if_pos rfl] at now
    exact ⟨_, by rw [now], by simp⟩

theorem amended_timed (now : Tick) (a : Action) (l : LiveEntry) : (l.amended now a).Timed := by
  have action : (l.amended now a).entry.action = a := rfl
  unfold LiveEntry.Timed
  rw [action]
  exact deadlineFrom_isSome a now

theorem amended_ticket (now : Tick) (a : Action) (l : LiveEntry) : (l.amended now a).ticket = l.ticket := by
  unfold LiveEntry.amended; dsimp only; split <;> rfl

theorem fading_applyAmend {s : State} {i : SlotNo} {l : LiveEntry} (live : (s.slot i).body = .live l)
    (a : Action) : Fading s (applyAmend i a s) := fun hs => by
  obtain ⟨m, now, past⟩ := withdrawOf_live hs.linked live .amended
  refine (fading_withdrawOf .amended i).trans ?_ hs
  unfold applyAmend
  simp only [now]
  refine fading_setTimed (amended_timed _ _ _) ?_ (fun k hk => past k ?_)
  · rw [amended_ticket, now]; rfl
  · rwa [amended_ticket] at hk

theorem fading_applyRenew (i : SlotNo) (s : State) : Fading s (applyRenew i s) := by
  unfold applyRenew
  split
  · rename_i l live
    exact fading_setLive live rfl rfl rfl (fun _ => deadlineFrom_isSome _ _)
  · exact .refl s

theorem fading_applyOp (op : Op) (s : State) : Fading s (applyOp op s).1 := by
  cases target : op.target with
  | none =>
    cases op with
    | insert image => exact fading_applyInsert image s
    | _ => cases target
  | some w =>
    cases named : s.namedLive w with
    | none => rw [applyOp_gone target named]; exact .refl s
    | some i =>
      obtain ⟨l, live⟩ : ∃ l, (s.slot i).body = .live l := by
        obtain ⟨-, -, -, isLive⟩ := namedLive_iff.1 named
        exact SlotBody.isLive_iff.1 isLive
      cases op with
      | insert image => cases target
      | remove v =>
        obtain rfl := Option.some.inj target
        rw [applyOp_remove_some named]
        exact fading_retire (c := .removed) nofun
      | amend v image =>
        obtain rfl := Option.some.inj target
        rw [applyOp_amend_some named]
        exact fading_applyAmend live _
      | renew v =>
        obtain rfl := Option.some.inj target
        rw [applyOp_renew_some named]
        exact fading_applyRenew i s

theorem fading_applyOps : ∀ {ops : List Op} {s : State}, Fading s (applyOps ops s).1
  | [], s => .refl s
  | op :: rest, s => (fading_applyOp op s).trans (fading_applyOps (ops := rest))

/-! ### Every effect -/

theorem InnerEffect.kept {s t : State} (h : InnerEffect s t) : Kept s t := by
  cases h with
  | expire i =>
    have retired : Fading s (retire .expired i s) := fading_retire nofun
    exact retired.kept.trans (.of_eq rfl rfl rfl)
  | due r h _ pending => exact (fading_fallDue pending).kept
  | timeout r => exact (fading_completeTicket r).kept.trans (.of_eq rfl rfl rfl)
  | openWindow i l live => exact (fading_setLive (m := { l with window := .opened }) live rfl rfl rfl id).kept
  | lookup q tag =>
    have popped : Fading s (popInbound q.source { s with pointer := q.source + 1 }) := .of_eq rfl rfl rfl
    exact popped.kept.trans (kept_answerLookup q tag _)
  | ack p id =>
    have popped : Fading s (popInbound p s) := .of_eq rfl rfl rfl
    exact (popped.trans (fading_takeAck p id _)).kept
  | cancel p id =>
    have popped : Fading s (popInbound p s) := .of_eq rfl rfl rfl
    exact (popped.trans (fading_takeCancel p id _)).kept
  | leaveRelease p m rest line k =>
    have left : Fading s (s.setPort p { s.port p with outbound := rest, line := line }) := .of_eq rfl rfl rfl
    exact (left.trans (fading_markSent k _)).kept
  | closePort p => exact fading_completeAll.kept.trans (.of_eq rfl rfl rfl)
  | collect i retired => exact (fading_collect retired).kept
  | _ => exact .of_eq rfl rfl rfl

/-- A state whose tickets are sound and none of which is PENDING. -/
theorem PendingSound.of_none {t : State} (none : ∀ r, (t.record r).body.isPending = false) :
    PendingSound t where
  gate r h := by rw [none] at h; cases h
  essential r h hh := by
    have := none r
    rw [hh] at this; cases this

/-- The shape of a table without an entry that is held RETIRING or RETIRED. -/
theorem EntriesShaped.of_free {t : State} (free : ∀ i, (t.slot i).body = .free) : EntriesShaped t where
  live i l h := by rw [free] at h; cases h
  retiring i e c k h := by rw [free] at h; cases h
  retired i e c h := by rw [free] at h; cases h

/-- What a reset leaves: no ticket and no entry (R24, R74). -/
theorem sound_of_cleared {t : State} (slots : t.rtb.slots = RouteTable.reset.slots) (rlu : t.rlu = .reset) :
    TicketsSound t ∧ PendingSound t ∧ EntriesShaped t := by
  have record : ∀ r, (t.record r).body = .free := fun r => by simp [State.record, rlu, ReleaseUnit.reset]
  have slot := slot_of_cleared slots
  refine ⟨.of_none record (fun i => by rw [slot]; rfl) ?_ ?_ (by rw [rlu]; rfl),
    .of_none (fun r => by rw [record]; rfl), .of_free (fun i => by rw [slot])⟩
  · rw [rlu]; exact List.nodup_finRange 96
  · intro r; rw [rlu]; exact List.mem_finRange r

theorem kept_cleared {s t : State} (slots : t.rtb.slots = RouteTable.reset.slots) (rlu : t.rlu = .reset) :
    Kept s t := fun _ _ =>
  have ⟨tickets, gated, shaped⟩ := sound_of_cleared slots rlu
  ⟨tickets, gated, fun _ => shaped⟩

/-- The withdrawal of PENDING tickets under another device state, where those left may stay (R69). -/
theorem kept_withdrawAll {s : State} (reason : WithdrawReason) {rs : List RecNo} (c : ControlUnit)
    (once : TicketsSound s → rs.Nodup)
    (pending : TicketsSound s → ∀ r ∈ rs, (s.record r).body.isPending = true)
    (left : TicketsSound s → ∀ r h, (s.record r).body = .pending h → r ∉ rs →
      (c.device = .active ∨ c.device = .fallback) ∧
      (c.device = .fallback → ∃ e, (s.slot h.handle.slot).body.entry? = some e ∧
        e.action.flags.essential = true)) : Kept s (withdrawAll reason rs { s with ctu := c }) := by
  intro hs _
  obtain ⟨sound, fades⟩ := fading_withdrawAll reason (rs := rs) (s := { s with ctu := c }) (hs.of_eq rfl rfl)
  have withdrew := withdrew_withdrawAll reason (s := { s with ctu := c }) (once hs) (pending hs)
  have stays : ∀ r h, ((withdrawAll reason rs { s with ctu := c }).record r).body = .pending h →
      (s.record r).body = .pending h ∧ r ∉ rs := by
    intro r h hh
    refine ⟨fades.pending r h hh, fun listed => ?_⟩
    rw [withdrew.completed.records, if_pos listed] at hh
    cases hh
  refine ⟨sound, ⟨fun r hr => ?_, fun r h hh device => ?_⟩, fun shaped => ?_⟩
  · obtain ⟨h, hh⟩ := (TicketBody.pending_iff _).1 hr
    obtain ⟨was, unlisted⟩ := stays r h hh
    rw [fades.device]
    exact (left hs r h was unlisted).1
  · obtain ⟨was, unlisted⟩ := stays r h hh
    rw [fades.device] at device
    obtain ⟨e, he, flag⟩ := (left hs r h was unlisted).2 device
    obtain ⟨-, field⟩ := sound.linked.record r h (by rw [hh]; rfl)
    obtain ⟨e', he'⟩ := entry_of_ticket field
    obtain ⟨e0, he0, d⟩ := fades.entry r h e' hh he'
    obtain rfl := Option.some.inj (he0.symm.trans he)
    exact ⟨e', he', by rw [Entry.action, d]; exact flag⟩
  · exact fades.shaped sound.linked ⟨shaped.live, shaped.retiring, shaped.retired⟩

theorem kept_stop (s : State) : Kept s (withdrawAll .stopped s.rlu.releaseList
    { s with ctu := { s.ctu with device := .standby, timer := none } }) := by
  refine kept_withdrawAll _ _ (fun hs => hs.pool.listedOnce) (fun hs r => (hs.pool.listedExact r).1)
    (fun hs r h hh unlisted => ?_)
  exact absurd ((hs.pool.listedExact r).2 (by rw [hh]; rfl)) unlisted

/-- A ticket counts as ESSENTIAL by the entry of the slot that its handle names (R7). -/
theorem ticketEssential_iff {s : State} {r : RecNo} {h : Held} (held : (s.record r).body.held? = some h) :
    ticketEssential s r = true ↔
      ∃ e, (s.slot h.handle.slot).body.entry? = some e ∧ e.action.flags.essential = true := by
  unfold ticketEssential
  simp only [held]
  cases (s.slot h.handle.slot).body.entry? <;> simp

theorem kept_supervision (s : State) : Kept s
    (withdrawAll .fallback (s.rlu.releaseList.filter (fun r => !ticketEssential s r))
      { s with ctu := { s.ctu with device := .fallback, timer := none } }) := by
  refine kept_withdrawAll _ _ (fun hs => hs.pool.listedOnce.filter _)
    (fun hs r hr => (hs.pool.listedExact r).1 (List.mem_filter.1 hr).1) (fun hs r h hh unlisted => ?_)
  refine ⟨.inr rfl, fun _ => (ticketEssential_iff (r := r) (by rw [hh]; rfl)).1 ?_⟩
  have listed := (hs.pool.listedExact r).2 (by rw [hh]; rfl)
  simpa [listed] using unlisted

theorem restarted_ticket (now : Tick) (sl : Slot) : (sl.restarted now).body.ticket? = none := by
  obtain ⟨era, body⟩ := sl
  cases body with
  | retiring e c k => exact finishedSlot_ticket era c e
  | _ => rfl

theorem slot_warmRestart (s : State) (i : SlotNo) :
    (warmRestart s).slot i = (s.slot i).restarted s.ctu.now := by
  simp [warmRestart, State.slot]

theorem record_warmRestart (s : State) (r : RecNo) :
    (warmRestart s).record r = { s.record r with body := .free } := by
  simp [warmRestart, ReleaseUnit.restarted, State.record]

theorem kept_warmRestart (s : State) : Kept s (warmRestart s) := by
  intro hs _
  have slot := slot_warmRestart s
  have free : ∀ r, ((warmRestart s).record r).body = .free := fun r => by rw [record_warmRestart]
  have sound : TicketsSound (warmRestart s) := by
    refine .of_none free (fun i => by rw [slot]; exact restarted_ticket _ _) ?_ (fun r => ?_) rfl
    · refine List.nodup_append.2 ⟨hs.pool.freeOnce, (List.nodup_finRange 96).filter _, ?_⟩
      rintro a ha b hb rfl
      have used := (List.mem_filter.1 hb).2
      have := (hs.pool.freeExact a).1 ha
      simp only [State.record] at this
      simp [this] at used
    · refine List.mem_append.2 ?_
      cases h : (s.record r).body.isFree with
      | true => exact .inl ((hs.pool.freeExact r).2 h)
      | false => exact .inr (List.mem_filter.2 ⟨List.mem_finRange r, by
          simp only [State.record] at h
          simp [h]⟩)
  refine ⟨sound, .of_none (fun r => by rw [free]; rfl), fun shaped => ⟨fun i m hm => ?_, fun i e c k h => ?_,
    fun i e c h => ?_⟩⟩
  · rw [slot] at hm
    obtain ⟨l, hl, timed⟩ := ((s.slot i).evolves_restarted s.ctu.now).live m hm
    exact timed (shaped.live i l hl)
  · have := restarted_ticket s.ctu.now (s.slot i)
    rw [← slot, h] at this; cases this
  · rw [slot] at h
    rcases ((s.slot i).evolves_restarted s.ctu.now).retired e c h with was | ⟨cause, quiet⟩
    · exact shaped.retired i e c was
    · refine ⟨?_, quiet⟩
      cases c with
      | removed => exact absurd rfl cause
      | expired => exact .inl rfl
      | spent => exact .inr rfl

theorem HostEffect.kept {s u : State} (h : HostEffect s u) : Kept s u := by
  cases h with
  | inner h => exact h.kept
  | activate was =>
    refine fun hs _ => ⟨hs.of_eq rfl rfl, ⟨fun _ _ => .inl rfl, fun _ _ _ device => by cases device⟩,
      fun shaped => ⟨shaped.live, shaped.retiring, shaped.retired⟩⟩
  | stop => exact kept_stop s
  | restart => exact kept_warmRestart s
  | _ => exact .of_eq rfl rfl rfl

theorem Effect.kept {x : Instr} {s t : State} (h : Effect x s t) : Kept s t := by
  cases h with
  | inner _ h => exact h.kept
  | reset => exact kept_cleared rfl rfl
  | memoryClear => exact kept_cleared rfl rfl
  | supervision => exact (kept_supervision s).trans (.of_eq rfl rfl rfl)
  | cutoverDone =>
    exact (fading_applyOps (ops := s.edu.ops)).kept.trans (.of_eq rfl rfl rfl)
  | host seq r u _ e => exact e.kept.trans (.of_eq rfl rfl rfl)
  | _ => exact .of_eq rfl rfl rfl

/-- Settles O56: every effect lets tickets fade, creates one for the entry it matched, or clears them all. -/
theorem stepKeepsTickets : Obligations.StepKeepsTickets := by
  intro s t sound gated step
  refine step_keeps (P := fun u => TicketsSound u ∧ PendingSound u ∧ (EntriesShaped s → EntriesShaped u))
    ?_ ?_ step ⟨sound, gated, id⟩
  · rintro u q ⟨hu, gu, su⟩
    exact ⟨hu.of_eq rfl rfl, ⟨gu.gate, gu.essential⟩,
      fun shaped => ⟨(su shaped).live, (su shaped).retiring, (su shaped).retired⟩⟩
  · rintro c u v effect ⟨hu, gu, su⟩
    obtain ⟨hv, gv, sv⟩ := effect.kept hu gu
    exact ⟨hv, gv, sv ∘ su⟩

end Sys2Proof.Machine
end

section
/-!
The block's step, the reset family and the time family, event by event.
-/

namespace Sys2Proof.Machine

/-! ### The block's step -/

/-- Settles O1: `step` by the two forms of the queue. -/
theorem stepTakesFrontCommand : Obligations.StepTakesFrontCommand := by
  refine ⟨fun c rest s => rfl, fun s empty => ?_⟩
  unfold step
  rw [empty]

theorem HostEffect.queue {s u : State} (h : HostEffect s u) : u.pending = s.pending := by
  cases h with
  | inner h => exact h.inner.queue
  | stop => exact (withdrawAll_frame .stopped s.rlu.releaseList _).2.2.1
  | _ => rfl

theorem Effect.queue {x : Instr} {s t : State} (h : Effect x s t) : t.pending = s.pending := by
  cases h with
  | inner _ h => exact h.inner.queue
  | supervision => exact (withdrawAll_frame .fallback _ _).2.2.1
  | cutoverDone => exact (applyOps_frame s.edu.ops s).2.2.2.2.2.2
  | host _ _ _ _ e => exact e.queue
  | _ => rfl

/-- No command faults or is refused: every branch of every arm answers a next state. -/
theorem exec_next (c : Instr) (s : State) : ∃ t, exec c s = .next t := by
  cases c with
  | powerOnHoldEnd | hardReset | resetRelease | memoryClearComplete =>
    simp only [exec, execPowerOnHoldEnd, execHardReset, execResetRelease, execMemoryClearComplete]
    (repeat' split) <;> exact ⟨_, rfl⟩
  | timebaseTick | deadlineExpiry | dueExpiry | offerTimeout | windowOpens | supervisionExpiry | cutover =>
    simp only [exec, execTimebaseTick, execDeadlineExpiry, execDueExpiry, execOfferTimeout, execWindowOpens,
      execSupervisionExpiry, execCutover]
    (repeat' split) <;> exact ⟨_, rfl⟩
  | frameArrival | badEscape | huntDelimiter | lookupEvent | ack | cancel | ping | leavingTheLink =>
    simp only [exec, execFrameArrival, execBadEscape, execHuntDelimiter, execLookupEvent, execAck, execCancel,
      execPing, execLeavingTheLink]
    (repeat' split) <;> exact ⟨_, rfl⟩
  | spiTransactionOpen | frameError | badCommand =>
    simp only [exec, execSpiTransactionOpen, execFrameError, execBadCommand]
    (repeat' split) <;> exact ⟨_, rfl⟩
  | _ => exact ⟨_, rfl⟩

/-- Settles O2: no effect of a command reaches the queue. -/
theorem commandsLeaveTheQueue : Obligations.CommandsLeaveTheQueue := by
  intro c s
  obtain ⟨t, next⟩ := exec_next c s
  exact ⟨t, next, (exec_effect next).queue⟩

/-! ### Reset (R163, R164, R178) -/

theorem lines_released {t : State} (clear : t.evu.flags = 0#11) (level : EventLevel) :
    t.evu.holds level = false := by
  simp [EventUnit.holds, clear]

/-- What a hard reset leaves, whatever began it (R163). -/
theorem atHardReset_hardResetTo (cause : ResetCause) (hold low : Bool) (s : State) :
    AtHardReset (hardResetTo cause hold low s) where
  slots := slot_of_cleared rfl
  generation := rfl
  serial := ⟨rfl, rfl⟩
  pointer := rfl
  records r := by simp [State.record, hardResetTo, ReleaseUnit.reset]
  freeOrder := rfl
  releaseList := rfl
  transaction := rfl
  ports p := by simp [State.port, hardResetTo, Port.cutOff, Port.reset]
  response := rfl
  cursor := rfl
  device := rfl
  timebase := ⟨rfl, rfl⟩
  supervision := ⟨rfl, rfl⟩
  limit := rfl
  events := ⟨rfl, rfl, rfl⟩
  levels := rfl
  lines := ⟨lines_released rfl .alert, lines_released rfl .note⟩
  links p k := txByte_idle (by simp [toSend, hardResetTo, ControlUnit.reset]) k

/-- The state after reset is what a hard reset leaves of it. -/
theorem reset_eq_hardResetTo : State.reset = hardResetTo .powerOn false false State.reset := by
  have ports : State.reset.qp = State.reset.qp.map Port.cutOff := by
    simp [State.reset, Port.cutOff, Port.reset]
  simp only [hardResetTo, ← ports]
  rfl

/-- Settles O3: the state after reset is what a hard reset leaves. -/
theorem resetStateIsSound : Obligations.ResetStateIsSound := by
  obtain ⟨tickets, gated, shaped⟩ := sound_of_cleared (t := State.reset) rfl rfl
  have empty : ∀ i, State.reset.slot i = ⟨0#6, .free⟩ := slot_of_cleared rfl
  have serials : SerialsSound State.reset :=
    ⟨by simp [empty, SlotBody.entry?], by simp [empty, SlotBody.live?], nofun, nofun⟩
  have criteria : CriteriaSound State.reset := ⟨by simp [empty, SlotBody.live?], nofun⟩
  have control : ControlSound State.reset := by rw [reset_eq_hardResetTo]; exact control_hardResetTo _ _ _ _
  have ports : PortsSound State.reset := by rw [reset_eq_hardResetTo]; exact ports_hardResetTo _ _ _ _
  have init : InitSound State.reset := by rw [reset_eq_hardResetTo]; exact init_hardResetTo _ _ _ _
  refine ⟨?_, rfl, rfl, control, .of_clear rfl rfl rfl, ⟨fun _ => rfl, Nat.zero_le _⟩, ports, tickets, gated,
    serials, criteria, init, shaped⟩
  rw [reset_eq_hardResetTo]
  exact atHardReset_hardResetTo _ _ _ _

/-- Settles O4: each event by the hold and the level of RESET#. -/
theorem hardResetBeginsAndEnds : Obligations.HardResetBeginsAndEnds := by
  have cleared := atHardReset_hardResetTo
  refine ⟨fun low s => ⟨_, rfl, cleared _ _ _ s, rfl, rfl, rfl, rfl⟩, fun s high noHold => ?_,
    fun s high hold => ?_, fun s hold high => ?_, fun s hold low => ?_, fun s low noHold => ?_,
    fun s low hold => ?_⟩
  · refine ⟨hardResetTo .pin false true s, ?_, cleared _ _ _ s, rfl, rfl, rfl, rfl, fun selected => ?_, rfl⟩
    · show execHardReset s = _
      simp [execHardReset, high, noHold]
    · simp [hardResetTo, selected, SpiPhase.lost]
  · show execHardReset s = _
    simp [execHardReset, high, hold]
  · refine ⟨releaseReset s, ?_, cleared _ _ _ s, rfl, rfl, rfl⟩
    show execPowerOnHoldEnd s = _
    simp [execPowerOnHoldEnd, high, hold]
  · show execPowerOnHoldEnd s = _
    simp [execPowerOnHoldEnd, low, hold]
  · refine ⟨releaseReset s, ?_, cleared _ _ _ s, rfl, rfl, rfl⟩
    show execResetRelease s = _
    simp [execResetRelease, low, noHold]
  · show execResetRelease s = _
    simp [execResetRelease, low, hold]

/-- Settles O5: what the memory clear writes is empty in INIT already. -/
theorem memoryClearEntersStandby : Obligations.MemoryClearEntersStandby := by
  intro s init released empty ports
  have table : { s.rtb with slots := RouteTable.reset.slots } = s.rtb := by rw [empty.table init]
  have queues : s.qp.map (fun q => { q with inbound := [], outbound := [] }) = s.qp := by
    refine Vector.ext (fun n hn => ?_)
    obtain ⟨inbound, outbound, -⟩ := (ports.bounded ⟨n, hn⟩).closed (empty.ports init ⟨n, hn⟩)
    simp only [State.port] at inbound outbound
    rw [Vector.getElem_map, ← inbound, ← outbound]
  show execMemoryClearComplete s = _
  rw [execMemoryClearComplete, if_pos ⟨init, released⟩, queues, table, ← empty.tickets init]
  rfl

/-! ### Time (R12, R170 to R172) -/

/-- A stored tick that lies ahead is not reached (R172). -/
theorem reached_of_ahead {now t : Tick} (h : t - now ≠ 0#32) (h' : (t - now).toNat < 2 ^ 31) :
    reached now t = false := by
  rw [Bool.eq_false_iff, Ne, reached_iff]
  rintro (e | e)
  · exact h e
  · omega

/-- Settles O6: `timebaseTick` and `windowOpens` by their guards. -/
theorem tickAndWindowEvents : Obligations.TickAndWindowEvents := by
  refine ⟨fun s running => ?_, fun s init => ?_, fun s i l running live shut due => ?_,
    fun s i l live ahead near => ?_⟩
  · show execTimebaseTick s = _
    rw [execTimebaseTick, if_neg running]
  · show execTimebaseTick s = _
    rw [execTimebaseTick, if_pos init]
  · have opens : reached s.ctu.now l.entry.windowOpen = true := by
      rw [reached_iff]
      refine due.imp (fun e => ?_) id
      rw [e, BitVec.sub_self]
    show execWindowOpens i s = _
    simp only [execWindowOpens, live]
    rw [if_pos ⟨shut, opens, running⟩]
    rfl
  · have later : reached s.ctu.now l.entry.windowOpen = false :=
      reached_of_ahead (fun e => by rw [e] at ahead; exact absurd ahead (by decide)) near
    show execWindowOpens i s = _
    simp only [execWindowOpens, live]
    rw [if_neg (fun c => by rw [later] at c; exact absurd c.2.1 (by decide))]

end Sys2Proof.Machine
end

section
/-!
The events that retire entries and that offer, complete and withdraw tickets: expiries, due tickets, offer
timeouts, the supervision expiry and STOP.
-/

namespace Sys2Proof.Machine

/-! ### One ticket -/

/-- The completion of one ticket, record by record (R70). -/
theorem Completed.one {r : RecNo} {s t : State} (c : Completed [r] s t) :
    (∀ x, t.record x = if x = r then ⟨(s.record x).serial, .free⟩ else s.record x) ∧
    t.rlu.freeOrder = s.rlu.freeOrder ++ [r] ∧
    t.rlu.releaseList = s.rlu.releaseList.filter (fun x => x != r) := by
  refine ⟨fun x => by simpa only [List.mem_singleton] using c.records x, c.freeOrder, ?_⟩
  rw [c.releaseList]
  congr 1; funext x
  by_cases e : x = r <;> simp [e]

/-- The withdrawal of the PENDING ticket of a LIVE entry, part by part (R67, R70). -/
theorem withdraw_live {s : State} {i : SlotNo} {l : LiveEntry} {k : TicketId} {h : Held}
    (reason : WithdrawReason) (live : (s.slot i).body = .live l) (ticket : l.ticket = some k)
    (pending : (s.record k.number).body = .pending h) (slot : h.handle.slot = i) :
    Withdrew reason [k.number] s (withdraw reason k.number s) ∧
    ∀ j, (withdraw reason k.number s).slot j
      = if j = i then ⟨(s.slot i).era, .live { l with ticket := none }⟩ else s.slot j := by
  obtain ⟨same, slots⟩ := withdrawOf_pending reason live ticket pending slot
  rw [same] at slots
  exact ⟨withdrew_of_pending pending reason, slots⟩

theorem raise_evu (k : EventKind) (s : State) :
    (raise k s).evu = { s.evu with flags := s.evu.flags ||| k.bit } := rfl

/-- A host command whose frame passes the tests, by what its run answers. -/
theorem next_of_run {c : HostCmd} {f : HostFrame} {s u : State} {run : State → State × Reply} {r : Reply}
    (taken : Taken c f s) (answer : run s = (u, r)) :
    (.next (hostCommand c f run s) : Result) = .next (u.answered f.seq r.result r.data) := by
  rw [hostCommand_taken taken, answer]

/-! ### Expiries (R22, R78) -/

theorem finishedSlot_expired (era : BitVec 6) (e : Entry) : finishedSlot era .expired e
    = if e.action.flags.quiet then ⟨era + 1#6, .free⟩ else ⟨era, .retired e .expired⟩ := by
  simp [finishedSlot]

theorem exec_deadlineExpiry {s : State} {i : SlotNo} {l : LiveEntry} {d : Tick} (running : s.ctu.device ≠ .init)
    (live : (s.slot i).body = .live l) (deadline : l.deadline = some d) : exec (.deadlineExpiry i) s
      = if reached s.ctu.now d then .next (raise .entryExpired (retire .expired i s)) else .next s := by
  show execDeadlineExpiry i s = _
  simp only [execDeadlineExpiry, expiryDue, live, deadline, running, ne_eq, not_false_iff, true_and]

/-- Settles O7: by the entry's ticket. -/
theorem expiryRetiresEntry : Obligations.ExpiryRetiresEntry := by
  intro s i l d running live deadline finished expired
  have event := exec_deadlineExpiry running live deadline
  have finishes : finishedSlot (s.slot i).era .expired l.entry = finished := finishedSlot_expired _ _
  refine ⟨fun due ticket => ?_, fun due k h c o ticket offered => ?_, fun due k h ticket pending slot => ?_,
    fun ahead near => ?_⟩
  · rw [event, if_pos ((reached_iff _ _).2 due), retire_none .expired live ticket, finishes]
    rfl
  · rw [event, if_pos ((reached_iff _ _).2 due), retire_offered .expired live ticket offered]
    rfl
  · obtain ⟨withdrew, slots⟩ := withdraw_live .expired live ticket pending slot
    obtain ⟨records, freeOrder, releaseList⟩ := withdrew.completed.one
    obtain ⟨evu, pointer, -, rest⟩ := withdraw_frame .expired k.number s
    refine ⟨raise .entryExpired ((withdraw .expired k.number s).setSlot i finished), ?_, records, freeOrder,
      releaseList, fun j => ?_, withdrew.ports, ?_, pointer, rest⟩
    · rw [event, if_pos ((reached_iff _ _).2 due),
        retire_pending (.inr ⟨rfl, rfl⟩) live ticket pending slot, finishes]
    · rw [raise_slot, State.slot_setSlot, slots]
      by_cases e : i = j
      · simp [e]
      · simp [e, Ne.symm e]
    · rw [raise_evu, State.setSlot_evu, evu]
      rfl
  · rw [event, reached_of_ahead ahead near]
    rfl

/-! ### Due tickets (R59, R60) -/

theorem exec_dueExpiry {s : State} {r : RecNo} {rest : List RecNo} {h : Held}
    (running : s.ctu.device = .active ∨ s.ctu.device = .fallback) (front : s.rlu.releaseList = r :: rest)
    (pending : (s.record r).body = .pending h) (due : reached s.ctu.now h.due = true) :
    exec .dueExpiry s = .next (fallDue r h s) := by
  show execDueExpiry s = _
  simp only [execDueExpiry, running, if_true, front, pending, due]

/-- What an offer leaves alone, and its RELEASE (R60). -/
theorem offer_frame (r : RecNo) (h : Held) (e : Entry) (dest : SegSet) (s : State) :
    (offer r h e dest s).evu = s.evu ∧ (offer r h e dest s).pointer = s.pointer ∧
    RestKept s (offer r h e dest s) ∧
    ∀ p, (offer r h e dest s).port p = (s.port p).placedAll (if p = h.owner then
      [.release (s.ticketId r) h.tag e.action.label dest (e.action.rewrite.getD h.ident)] else []) := by
  refine ⟨?_, ?_, (inner_offer s r h e dest).rest, fun p => ?_⟩
  · rw [offer, shutForOffer_eq]; rfl
  · rw [offer, shutForOffer_eq]; rfl
  · have ports : ∀ x, (shutForOffer h.handle.slot (s.ctu.now + e.action.paceInterval.setWidth 32)
        { s.setRecord r { s.record r with body := .offered h false none } with
          rlu := { (s.setRecord r { s.record r with body := .offered h false none }).rlu with
            releaseList := s.rlu.releaseList.filter (fun x => x != r) } }).port x = s.port x := by
      intro x
      simp only [State.port, (shutForOffer_frame _ _ _).1]
      rfl
    rw [offer, place_eq, State.port_setPort]
    by_cases mine : h.owner = p
    · subst mine
      rw [if_pos rfl, if_pos rfl]
      exact congrArg (Port.placedAll · _) (ports _)
    · rw [if_neg mine, if_neg (Ne.symm mine), Port.placedAll_nil]
      exact ports p

theorem slot_offer (r : RecNo) (h : Held) (e : Entry) (dest : SegSet) (s : State) (j : SlotNo) :
    (offer r h e dest s).slot j = (shutForOffer h.handle.slot
      (s.ctu.now + e.action.paceInterval.setWidth 32) s).slot j := by
  simp only [offer, place_slot, shutForOffer_eq, State.slot_setSlot]
  rfl

/-- Settles O8: by the destinations of the release. -/
theorem dueTicketIsOfferedOrWithdrawn : Obligations.DueTicketIsOfferedOrWithdrawn := by
  intro s r rest h e running front pending due entry i dest opens
  have event := exec_dueExpiry running front pending ((reached_iff _ _).2 due)
  refine ⟨fun some => ⟨offer r h e dest s, ?_, fun q => ?_, ?_, ?_, fun l live => ?_, fun c k held => ?_,
    fun j other => ?_, ?_⟩, fun none => ⟨withdraw .noDestination r s, ?_, withdrew_of_pending pending _, ?_⟩⟩
  · rw [event, fallDue]
    simp only [entry]
    rw [if_neg some]
  · rw [record_offer]
    by_cases same : r = q
    · simp [same]
    · simp [same, Ne.symm same]
  · rw [offer_rlu]; rfl
  · rw [offer_rlu]
  · obtain rfl : l.entry = e := by simpa [live, SlotBody.entry?, i] using entry
    rw [slot_offer, shutForOffer_eq, State.slot_setSlot, if_pos rfl]
    simp only [i] at live
    simp only [live]
    rfl
  · rw [slot_offer, shutForOffer_eq, State.slot_setSlot, if_pos rfl]
    simp only [i] at held
    simp only [held]
    rfl
  · rw [slot_offer, shutForOffer_eq, State.slot_setSlot, if_neg (Ne.symm other)]
  · obtain ⟨evu, pointer, kept, ports⟩ := offer_frame r h e dest s
    exact ⟨ports, evu, pointer, kept⟩
  · rw [event, fallDue]
    simp only [entry]
    rw [if_pos none]
  · obtain ⟨evu, pointer, -, kept⟩ := withdraw_frame .noDestination r s
    exact ⟨evu, pointer, kept⟩

/-! ### Offer timeouts (R66) -/

theorem exec_offerTimeout {s : State} {r : RecNo} {h : Held} {c : Bool} {o : Option Tick}
    (offered : (s.record r).body = .offered h c o) : exec (.offerTimeout r) s
      = if s.ctu.device ≠ .init ∧ o.any (reached s.ctu.now) = true
        then .next (raise .offerTimeout (completeTicket r s)) else .next s := by
  show execOfferTimeout r s = _
  have same : offerDue s r = o.any (reached s.ctu.now) := by
    simp only [offerDue, offered]
    cases o <;> rfl
  rw [execOfferTimeout, same]

/-- Settles O9: the completion of the ticket, as `completeTicket` does it. -/
theorem offerTimeoutCompletesTicket : Obligations.OfferTimeoutCompletesTicket := by
  refine ⟨fun s r h c d running offered due => ?_, fun s r h c o offered ahead => ?_⟩
  · obtain ⟨qp, evu, pointer, -, rest⟩ := completeTicket_frame r s
    have completed := completed_of_held (s := s) (r := r) (h := h) (by rw [offered]; rfl)
    refine ⟨raise .offerTimeout (completeTicket r s), ?_,
      ⟨completed.records, completed.freeOrder, completed.releaseList, completed.slots⟩, ?_, qp, pointer, rest⟩
    · rw [exec_offerTimeout offered, if_pos ⟨running, (reached_iff _ _).2 due⟩]
    · rw [raise_evu, evu]
      rfl
  · rw [exec_offerTimeout offered, if_neg]
    rintro ⟨-, due⟩
    cases o with
    | none => cases due
    | some d =>
      obtain ⟨later, near⟩ := ahead d rfl
      have : reached s.ctu.now d = true := due
      rw [reached_of_ahead later near] at this
      cases this

/-! ### Withdrawals of many tickets (R69) -/

/-- The withdrawal of distinct PENDING tickets under a change of the control unit. -/
theorem withdrew_under (reason : WithdrawReason) {rs : List RecNo} {s : State} (c : ControlUnit)
    (once : rs.Nodup) (pending : ∀ r ∈ rs, (s.record r).body.isPending = true) :
    Withdrew reason rs s (withdrawAll reason rs { s with ctu := c }) := by
  have withdrew := withdrew_withdrawAll reason (s := { s with ctu := c }) once pending
  obtain ⟨records, freeOrder, releaseList, slots⟩ := withdrew.completed
  exact ⟨⟨records, freeOrder, releaseList, slots⟩, withdrew.ports⟩

/-- What is read of the slots, the tickets and the ports tells a withdrawal. -/
theorem Withdrew.of_eq {reason : WithdrawReason} {rs : List RecNo} {s t u : State} (h : Withdrew reason rs s t)
    (rtb : u.rtb = t.rtb) (rlu : u.rlu = t.rlu) (qp : u.qp = t.qp) : Withdrew reason rs s u := by
  obtain ⟨⟨records, freeOrder, releaseList, slots⟩, ports⟩ := h
  refine ⟨⟨fun r => ?_, by rw [rlu]; exact freeOrder, by rw [rlu]; exact releaseList, fun i => ?_⟩, fun p => ?_⟩
  · rw [← records]; simp only [State.record, rlu]
  · rw [← slots]; simp only [State.slot, rtb]
  · rw [← ports]; simp only [State.port, qp]

/-- Settles O10: the tickets withdrawn are those of the release list that are not ESSENTIAL. -/
theorem supervisionExpiryEntersFallback : Obligations.SupervisionExpiryEntersFallback := by
  refine ⟨fun s x active timer due once pending => ?_, fun s r => ?_, fun s x timer later near => ?_⟩
  · have kept := withdrawAll_ctu .fallback (s.rlu.releaseList.filter (fun r => !ticketEssential s r))
      { s.ctu with device := .fallback, timer := none } s
    have frame := withdrawAll_frame .fallback (s.rlu.releaseList.filter (fun r => !ticketEssential s r))
      { s with ctu := { s.ctu with device := .fallback, timer := none } }
    obtain ⟨ctu, edu, evu⟩ := kept
    obtain ⟨-, pointer, -, counters, -, hpt, -⟩ := frame
    have withdrew := withdrew_under .fallback { s.ctu with device := .fallback, timer := none }
      (once.filter (fun r => !ticketEssential s r)) (fun r hr => pending r (List.mem_filter.1 hr).1)
    refine ⟨raise .fallbackEntered (withdrawAll .fallback
      (s.rlu.releaseList.filter (fun r => !ticketEssential s r))
      { s with ctu := { s.ctu with device := .fallback, timer := none } }), ?_, withdrew.of_eq rfl rfl rfl, ctu,
      ?_, counters, pointer, edu, hpt⟩
    · show execSupervisionExpiry s = _
      simp only [execSupervisionExpiry, timer]
      rw [if_pos ⟨(reached_iff _ _).2 due, active⟩]
    · rw [raise_evu, evu]
      rfl
  · cases held : (s.record r).body.held? with
    | none => simp [ticketEssential, held]
    | some h =>
      rw [ticketEssential_iff held]
      simp [Entry.action]
  · show execSupervisionExpiry s = _
    simp only [execSupervisionExpiry, timer]
    rw [if_neg]
    rintro ⟨due, -⟩
    rw [reached_of_ahead later near] at due
    cases due

/-- Settles O41: the withdrawal of the whole release list under the control unit of STANDBY. -/
theorem stopWithdrawsEveryPendingTicket : Obligations.StopWithdrawsEveryPendingTicket := by
  intro s f taken
  refine ⟨fun running once pending => ?_, fun standby => ?_⟩
  · have run : runStop f.params s = (withdrawAll .stopped s.rlu.releaseList
        { s with ctu := { s.ctu with device := .standby, timer := none } }, .ok) := if_pos running
    obtain ⟨ctu, edu, evu⟩ := withdrawAll_ctu .stopped s.rlu.releaseList
      { s.ctu with device := .standby, timer := none } s
    obtain ⟨-, pointer, -, counters, -, hpt, -⟩ := withdrawAll_frame .stopped s.rlu.releaseList
      { s with ctu := { s.ctu with device := .standby, timer := none } }
    have withdrew := withdrew_under .stopped { s.ctu with device := .standby, timer := none } once pending
    refine ⟨_, next_of_run taken run, withdrew.of_eq rfl rfl rfl, ?_, ctu, ?_, evu, counters, pointer, edu⟩
    · refine withdrew.completed.releaseList.trans ?_
      simp
    · simp only [State.answered, hpt]
      rfl
  · have run : runStop f.params s = (s, .bare .wrongState) := if_neg (by rw [standby]; simp)
    exact next_of_run taken run

end Sys2Proof.Machine
end

section
/-!
The query links, event by event: arrivals, heads, messages that leave, and what handles and ids name.
-/

namespace Sys2Proof.Machine

/-! ### Arrivals (R126, R127, R192, R193) -/

theorem content_length (m : InMsg) : 2 ≤ m.content.length ∧ m.content.length ≤ 9 := by
  cases m <;> simp [InMsg.content]

/-- The content of an inbound message is read as that message (R192). -/
theorem parseInbound_content (m : InMsg) : parseInbound m.content = some m := by
  obtain ⟨least, most⟩ := content_length m
  have check : crc8 m.content = 0#8 := by cases m <;> exact crc8_withCheck _
  unfold parseInbound
  rw [if_pos ⟨least, most, check⟩]
  cases m with
  | lookup tag ident kind length =>
    show (if 0x10#8 = 0x10#8 then some (InMsg.lookup tag (ident.extractLsb' 16 8 ++ ident.extractLsb' 8 8 ++
      ident.extractLsb' 0 8) kind (length.extractLsb' 8 8 ++ length.extractLsb' 0 8)) else none) = _
    rw [if_pos rfl, be24_join, be16_join]
  | ack id =>
    show some (InMsg.ack (id.extractLsb' 8 8 ++ id.extractLsb' 0 8)) = _
    rw [be16_join]
  | cancel id =>
    show some (InMsg.cancel (id.extractLsb' 8 8 ++ id.extractLsb' 0 8)) = _
    rw [be16_join]
  | ping tag => rfl

/-- A content that is read as a message passes every arrival check (R126, R193). -/
theorem checks_of_parseInbound {content : List Byte} {m : InMsg} (h : parseInbound content = some m) :
    2 ≤ content.length ∧ content.length ≤ 9 ∧ crc8 content = 0#8 ∧
    (content.head? = some 0x10#8 ∧ content.length = 9 ∨ content.head? = some 0x11#8 ∧ content.length = 4 ∨
      content.head? = some 0x12#8 ∧ content.length = 4 ∨ content.head? = some 0x13#8 ∧ content.length = 3) := by
  unfold parseInbound at h
  split at h
  · rename_i checks
    obtain ⟨least, most, check⟩ := checks
    refine ⟨least, most, check, ?_⟩
    split at h
    · split at h
      · rename_i k; subst k; exact .inl ⟨rfl, rfl⟩
      · cases h
    · split at h
      · rename_i k; subst k; exact .inr (.inl ⟨rfl, rfl⟩)
      · split at h
        · rename_i k; subst k; exact .inr (.inr (.inl ⟨rfl, rfl⟩))
        · cases h
    · split at h
      · rename_i k; subst k; exact .inr (.inr (.inr ⟨rfl, rfl⟩))
      · cases h
    · cases h
  · cases h

theorem exec_frameArrival {s : State} {p : PortNo} (opened : (s.port p).state = .opened)
    (framed : (s.port p).receiver = .frame) {content : LinkContent} (some : content.bytes ≠ []) :
    exec (.frameArrival p content) s = match arrivedMessage content with
      | Option.some m => .next (arrive p m s)
      | none => .next (raiseLinkError p s) := by
  show execFrameArrival p content s = _
  have filled : content.bytes.isEmpty = false := by simpa using some
  simp only [execFrameArrival, opened, framed, filled, Bool.false_eq_true, if_false] <;> rfl

/-- Settles O11: by the room of the inbound queue. -/
theorem arrivalQueuesOrOverruns : Obligations.ArrivalQueuesOrOverruns := by
  intro s p m opened framed
  have filled : m.content ≠ [] := fun e => by
    have := (content_length m).1
    rw [e] at this; exact absurd this (by decide)
  have arrived : exec (.frameArrival p ⟨m.content, false⟩) s = .next (arrive p m s) := by
    rw [exec_frameArrival opened framed filled]
    simp only [arrivedMessage, Bool.false_eq_true, if_false, parseInbound_content]
  rw [arrived, arrive]
  refine ⟨fun room => ?_, fun full => ?_⟩
  · rw [if_pos (show _ < Config.inboundRoom from room)]
  · rw [if_neg (show ¬ _ < Config.inboundRoom from Nat.not_lt.2 full)]
    rfl

/-- Settles O12: a frame that arrives as a message passes every check. -/
theorem failedArrivalRaisesLinkError : Obligations.FailedArrivalRaisesLinkError := by
  intro s p content tooLong opened framed filled failed
  have none : arrivedMessage ⟨content, tooLong⟩ = none := by
    cases parsed : arrivedMessage ⟨content, tooLong⟩ with
    | none => rfl
    | some m =>
      unfold arrivedMessage at parsed
      split at parsed
      · cases parsed
      · rename_i short
        obtain ⟨least, most, check, kind⟩ := checks_of_parseInbound parsed
        grind
  rw [exec_frameArrival opened framed filled, none]
  rfl

/-- Settles O13: by the state and the receiver of the port. -/
theorem receiverFollowsTheLine : Obligations.ReceiverFollowsTheLine := by
  intro s p
  refine ⟨fun b opened framed delimiter escape other => ?_,
    fun opened hunting => ⟨?_, fun content tooLong => ?_⟩, fun closed content tooLong b => ⟨?_, ?_, ?_⟩⟩
  · show execBadEscape p b s = _
    have bad : badEscapeByte b = true := by
      simp only [badEscapeByte, Bool.and_eq_true, bne_iff_ne]
      exact ⟨⟨delimiter, escape⟩, other⟩
    rw [execBadEscape, if_pos ⟨opened, framed, bad⟩]
    rfl
  · show execHuntDelimiter p s = _
    rw [execHuntDelimiter, if_pos ⟨opened, hunting⟩]
  · show execFrameArrival p _ s = _
    simp only [execFrameArrival, opened, hunting]
  · show execFrameArrival p _ s = _
    simp only [execFrameArrival, closed]
  · show execBadEscape p b s = _
    rw [execBadEscape, if_neg (by simp [closed])]
  · show execHuntDelimiter p s = _
    rw [execHuntDelimiter, if_neg (by simp [closed])]

/-! ### Heads (R62 to R65, R129, R131) -/

@[simp] theorem State.setPort_setPort (s : State) (p : PortNo) (a b : Port) :
    (s.setPort p a).setPort p b = s.setPort p b := by
  simp [State.setPort]

theorem ownedBy_owner {b : TicketBody} {h : Held} {p : PortNo} (held : b.held? = some h) (owner : h.owner = p) :
    b.ownedBy p = true := by
  rw [ownedBy_of_held held, owner]
  exact beq_self_eq_true p

theorem ownedBy_other {b : TicketBody} {h : Held} {p : PortNo} (held : b.held? = some h) (other : h.owner ≠ p) :
    b.ownedBy p = false := by
  rw [ownedBy_of_held held]
  exact beq_false_of_ne other

/-- The head of an OPEN port with room is taken (R129). -/
theorem readyHead_eq {s : State} {p : PortNo} {m : InMsg} {rest : List InMsg}
    (opened : (s.port p).state = .opened) (room : (s.port p).answers < 8)
    (head : (s.port p).inbound = m :: rest) : s.readyHead p = some m := by
  rw [State.readyHead, if_pos ((Port.ready_iff _).2 ⟨opened, room⟩), head]
  rfl

/-- A head that is taken and answered (R129). -/
theorem place_popInbound {s : State} {p : PortNo} {m : InMsg} {rest : List InMsg}
    (head : (s.port p).inbound = m :: rest) (b : OutBody) : place p b (popInbound p s)
      = s.setPort p { (s.port p).placedAll [b] with inbound := rest } := by
  rw [place_eq, popInbound, State.setPort_setPort, State.port_setPort, if_pos rfl, head]
  rfl

theorem exec_ack {s : State} {p : PortNo} {id : Half} {rest : List InMsg}
    (opened : (s.port p).state = .opened) (room : (s.port p).answers < 8)
    (head : (s.port p).inbound = .ack id :: rest) :
    exec (.ack p) s = .next (takeAck p id (popInbound p s)) := by
  show execAck p s = _
  rw [execAck, readyHead_eq opened room head]

theorem exec_cancel {s : State} {p : PortNo} {id : Half} {rest : List InMsg}
    (opened : (s.port p).state = .opened) (room : (s.port p).answers < 8)
    (head : (s.port p).inbound = .cancel id :: rest) :
    exec (.cancel p) s = .next (takeCancel p id (popInbound p s)) := by
  show execCancel p s = _
  rw [execCancel, readyHead_eq opened room head]

/-- Settles O14: the completion of the ticket, or a head that is not ready. -/
theorem ackCompletesSentOffer : Obligations.AckCompletesSentOffer := by
  refine ⟨fun s p id rest r h c d opened room head named offered owner => ?_, fun s p full => ?_⟩
  · have held : ((popInbound p s).record r).body.held? = some h := by
      rw [popInbound_record, offered]; rfl
    have taken : takeAck p id (popInbound p s) = completeTicket r (popInbound p s) := by
      have named : (popInbound p s).namedTicket id = some r := named
      simp only [takeAck, named, popInbound_record, offered]
      exact if_pos (ownedBy_owner (b := .offered h c (some d)) rfl owner)
    obtain ⟨records, freeOrder, releaseList, slots⟩ := completed_of_held held
    obtain ⟨qp, evu, pointer, -, kept⟩ := completeTicket_frame r (popInbound p s)
    refine ⟨_, by rw [exec_ack opened room head, taken], ⟨records, freeOrder, releaseList, slots⟩, ?_, evu,
      pointer, kept⟩
    rw [qp, popInbound, head]
    rfl
  · have waits : s.readyHead p = none := by
      refine if_neg (fun ready => ?_)
      have := ((Port.ready_iff _).1 ready).2
      omega
    refine ⟨?_, ?_, ?_⟩
    · show execAck p s = _
      rw [execAck, waits]
    · show execCancel p s = _
      rw [execCancel, waits]
    · show execPing p s = _
      rw [execPing, waits]

/-- Settles O15: by the state of the ticket. -/
theorem cancelCompletesOrIsTooLate : Obligations.CancelCompletesOrIsTooLate := by
  intro s p id rest r opened room head named
  have event := exec_cancel opened room head
  have named : (popInbound p s).namedTicket id = some r := named
  refine ⟨fun h pending owner => ?_, fun h c o offered owner => ?_⟩
  · have held : ((popInbound p s).record r).body.held? = some h := by
      rw [popInbound_record, pending]; rfl
    have taken : takeCancel p id (popInbound p s)
        = place p (.cancelled id) (completeTicket r (popInbound p s)) := by
      simp only [takeCancel, named, popInbound_record, pending]
      exact if_pos (ownedBy_owner (b := .pending h) rfl owner)
    obtain ⟨records, freeOrder, releaseList, slots⟩ := completed_of_held held
    obtain ⟨qp, evu, pointer, -, kept⟩ := completeTicket_frame r (popInbound p s)
    refine ⟨place p (.cancelled id) (completeTicket r (popInbound p s)), by rw [event, taken],
      ⟨records, freeOrder, releaseList, slots⟩, ?_, evu, pointer, kept⟩
    have placed := congrArg State.qp (place_popInbound head (.cancelled id))
    rw [← show (place p (.cancelled id) (popInbound p s)).qp = s.qp.set p.val _ from placed]
    simp only [place, State.setPort, State.port, qp]
  · have held : ((popInbound p s).record r).body.held? = some h := by
      rw [popInbound_record, offered]; rfl
    have taken : takeCancel p id (popInbound p s) = (place p (.tooLate id) (popInbound p s)).setRecord r
        ⟨(s.record r).serial, .offered h true o⟩ := by
      simp only [takeCancel, named, popInbound_record, offered]
      exact if_pos (ownedBy_owner (b := .offered h c o) rfl owner)
    refine ⟨_, by rw [event, taken], ?_⟩
    rw [place_popInbound head]
    rfl

/-- Settles O16: by what the id names. -/
theorem strayAnswersByCause : Obligations.StrayAnswersByCause := by
  intro s p id rest opened room strayed
  have placed : ∀ {m : InMsg} (cause : StrayCause), (s.port p).inbound = m :: rest →
      place p (.stray id cause) (popInbound p s) = strayed cause := fun _ head => place_popInbound head _
  refine ⟨fun head => ⟨fun unnamed => ?_, fun r h named held other => ?_, fun r h named owner body => ?_⟩,
    fun head => ⟨fun unnamed => ?_, fun r h named held other => ?_⟩⟩
  · have unnamed : (popInbound p s).namedTicket id = none := unnamed
    rw [exec_ack opened room head, ← placed _ head]
    simp only [takeAck, unnamed]
  · have named : (popInbound p s).namedTicket id = some r := named
    rw [exec_ack opened room head, ← placed _ head]
    simp only [takeAck, named, popInbound_record, ownedBy_other held other, Bool.false_eq_true, if_false]
  · have named : (popInbound p s).namedTicket id = some r := named
    rw [exec_ack opened room head, ← placed _ head]
    rcases body with pending | ⟨c, offered⟩
    · simp only [takeAck, named, popInbound_record, pending]
      exact congrArg _ (if_pos (ownedBy_owner (b := .pending h) rfl owner))
    · simp only [takeAck, named, popInbound_record, offered]
      exact congrArg _ (if_pos (ownedBy_owner (b := .offered h c none) rfl owner))
  · have unnamed : (popInbound p s).namedTicket id = none := unnamed
    rw [exec_cancel opened room head, ← placed _ head]
    simp only [takeCancel, unnamed]
  · have named : (popInbound p s).namedTicket id = some r := named
    rw [exec_cancel opened room head, ← placed _ head]
    simp only [takeCancel, named, popInbound_record, ownedBy_other held other, Bool.false_eq_true, if_false]

/-- Settles O17: `execPing` at a ready head. -/
theorem pingIsAnsweredByPong : Obligations.PingIsAnsweredByPong := by
  intro s p tag rest opened room head
  show execPing p s = _
  rw [execPing, readyHead_eq opened room head, ← place_popInbound head]

/-! ### Messages that leave (R61, R123, R133) -/

/-- A run of frames opens with a delimiter (R123). -/
theorem lineFrames_delimiter : ∀ contents : List (List Byte),
    ∃ rest, lineFrames contents = Config.delimiter :: rest
  | [] => ⟨[], rfl⟩
  | content :: rest => ⟨escapeAll content ++ lineFrames rest, rfl⟩

/-- A frame ahead of others: its bytes first, and from its closing delimiter on theirs. -/
theorem lineFrames_split (content : List Byte) (rest : List (List Byte)) :
    (∃ others, lineFrames (content :: rest) = lineFrame content ++ others) ∧
    lineFrames (content :: rest) = (Config.delimiter :: escapeAll content) ++ lineFrames rest := by
  refine ⟨?_, rfl⟩
  obtain ⟨others, e⟩ := lineFrames_delimiter rest
  refine ⟨others, ?_⟩
  rw [lineFrames, e]
  simp [lineFrame]

theorem lineFrame_length (content : List Byte) :
    (lineFrame content).length = (Config.delimiter :: escapeAll content).length + 1 := by
  simp [lineFrame]

theorem exec_leavingTheLink {s : State} {p : PortNo} {m : OutMsg} {rest : List OutMsg}
    (opened : (s.port p).state = .opened) (out : (s.port p).outbound = m :: rest) :
    exec (.leavingTheLink p) s = match m.body with
      | .release t _ _ _ _ => .next (markSent t (s.setPort p
          { s.port p with outbound := rest, line := .sent (lineFrame m.content) }))
      | _ => .next (s.setPort p { s.port p with outbound := rest, line := .sent (lineFrame m.content) }) := by
  show execLeavingTheLink p s = _
  unfold execLeavingTheLink
  rw [opened, out] <;> rfl

/-- The content of a message less its check byte (R124, R192). -/
theorem content_dropLast (m : OutMsg) : m.content.dropLast
    = [m.body.code, if m.overrun then 1#8 else 0#8] ++ m.body.bytes := by
  rw [OutMsg.content, withCheck, List.dropLast_concat]

/-- Settles O18: the line by `lineFrames_split`, the content kind by kind. -/
theorem leavingMessageIsSent : Obligations.LeavingMessageIsSent := by
  refine ⟨fun s p silent => txByte_idle ?_, ?_⟩
  · unfold toSend
    rcases silent with held | init | closed | empty
    · rw [if_pos (.inl held)]
    · rw [if_pos (.inr (.inl init))]
    · rw [if_pos (.inr (.inr closed))]
    · rw [empty, ite_self]
  · intro s p m rest opened out left
    have event := exec_leavingTheLink opened out
    refine ⟨fun k tag label dest ident h c body record => ?_, fun other => ?_, fun running awake => ?_,
      crc8_withCheck _, ?_⟩
    · have record : left.record k.number = ⟨k.serial, .offered h c none⟩ := record
      rw [event, body]
      simp only [markSent]
      rw [record]
      exact congrArg _ (if_pos rfl)
    · rw [event]
      cases body : m.body with
      | release k tag label dest ident => exact absurd body (other k tag label dest ident)
      | _ => rfl
    · have sends : toSend s p = m :: rest := by rw [toSend_opened running awake opened, out]
      have next : toSend left p = rest := by
        rw [toSend_opened (s := left) running awake] <;> simp [left, opened]
      obtain ⟨⟨others, whole⟩, split⟩ := lineFrames_split m.content (rest.map OutMsg.content)
      refine ⟨fun k short => ?_, fun k => ?_⟩
      · rw [txByte, sends, List.map_cons, whole, List.getD_append _ _ _ _ short, List.getD_eq_getElem _ _ short,
          List.getElem?_eq_getElem short]
      · rw [txByte, txByte, sends, next, List.map_cons, split, lineFrame_length, Nat.add_sub_cancel,
          List.getD_append_right _ _ _ _ (Nat.le_add_right _ _), Nat.add_sub_cancel_left]
    · rw [content_dropLast]
      cases m.body with
      | drop tag reason label => cases reason <;> rfl
      | refuse tag reason => cases reason <;> rfl
      | withdrawn k tag reason => cases reason <;> rfl
      | stray w cause => cases cause <;> rfl
      | pong tag d gen free => cases d <;> rfl
      | portUp d gen => cases d <;> rfl
      | _ => rfl

/-! ### Handles and ticket ids (R4, R52) -/

theorem handleSlot_val (w : Half) : (handleSlot w).val = w.toNat % 512 := rfl

theorem handleEra_toNat (w : Half) : (handleEra w).toNat = w.toNat / 512 % 64 := by
  simp [handleEra, BitVec.extractLsb'_toNat, Nat.shiftRight_eq_div_pow]

theorem ticketSerial_toNat (w : Half) : (ticketSerial w).toNat = w.toNat / 256 % 16 := by
  simp [ticketSerial, BitVec.extractLsb'_toNat, Nat.shiftRight_eq_div_pow]

theorem getLsbD_eq_div (w : Half) (n : Nat) : w.getLsbD n = decide (w.toNat / 2 ^ n % 2 = 1) := by
  rw [BitVec.getLsbD, Nat.testBit_eq_decide_div_mod_eq]

/-- The bits that an id leaves at 0 (R52). -/
theorem and_F080 (w : Half) : w &&& 0xF080#16 = 0#16 ↔ w.toNat < 4096 ∧ w.toNat / 128 % 2 = 0 := by
  have small := w.isLt
  constructor
  · intro h
    have bit : ∀ n, (0xF080#16).getLsbD n = true → ¬ w.toNat / 2 ^ n % 2 = 1 := by
      intro n set
      have clear : (w &&& 0xF080#16).getLsbD n = (0#16).getLsbD n := by rw [h]
      rwa [BitVec.getLsbD_and, set, Bool.and_true, BitVec.getLsbD_zero, getLsbD_eq_div,
        decide_eq_false_iff_not] at clear
    have b7 := bit 7 rfl
    have b12 := bit 12 rfl
    have b13 := bit 13 rfl
    have b14 := bit 14 rfl
    have b15 := bit 15 rfl
    norm_num at b7 b12 b13 b14 b15
    omega
  · rintro ⟨low, b7⟩
    have places : ∀ n : Fin 16, (0xF080#16).getLsbD n.val = true → n.val = 7 ∨ 12 ≤ n.val := by decide
    refine BitVec.eq_of_getLsbD_eq (fun n hn => ?_)
    rw [BitVec.getLsbD_and, BitVec.getLsbD_zero, Bool.and_eq_false_iff, or_iff_not_imp_right, Bool.not_eq_false]
    intro set
    rw [getLsbD_eq_div, decide_eq_false_iff_not]
    rcases places ⟨n, hn⟩ set with e | high
    · obtain rfl : n = 7 := e
      norm_num
      omega
    · have least : 2 ^ 12 ≤ 2 ^ n := Nat.pow_le_pow_right (by decide) high
      have below : w.toNat < 2 ^ n := Nat.lt_of_lt_of_le low least
      rw [Nat.div_eq_of_lt below]
      decide

theorem ticketNumber_eq_some {w : Half} {r : RecNo} : ticketNumber w = some r ↔
    w.toNat < 4096 ∧ w.toNat / 128 % 2 = 0 ∧ w.toNat % 128 = r.val := by
  unfold ticketNumber
  rw [← and_assoc, ← and_F080]
  split
  · rename_i zero
    simp only [zero, true_and]
    split
    · rw [Option.some.injEq, Fin.ext_iff]
    · rename_i most
      have := r.isLt
      simp only [reduceCtorEq, false_iff]
      omega
  · rename_i some
    simp [some]

/-- A handle that names a slot, by its parts (R4). -/
theorem named_eq_some {s : State} {w : Half} {i : SlotNo} : s.named w = some i ↔
    w.getLsbD 15 = false ∧ handleSlot w = i ∧ (s.slot i).era = handleEra w ∧
      (s.slot i).body.isFree = false := by
  unfold State.named
  constructor
  · intro h
    split at h
    · rename_i c
      obtain rfl := Option.some.inj h
      simp only [Bool.and_eq_true, Bool.not_eq_true', beq_iff_eq] at c
      exact ⟨c.1.1, rfl, c.2, c.1.2⟩
    · cases h
  · rintro ⟨top, rfl, era, used⟩
    rw [if_pos]
    simp only [top, used, era, Bool.not_false, Bool.and_self, beq_self_eq_true]

/-- Settles O19: the fields of a handle and of an id, by division. -/
theorem namesAreCurrent : Obligations.NamesAreCurrent := by
  refine ⟨fun s w i => ?_, fun s w r => ?_⟩
  · have small := w.isLt
    have era := (s.slot i).era.isLt
    have slot := i.isLt
    rw [named_eq_some, getLsbD_eq_div, decide_eq_false_iff_not, Fin.ext_iff, handleSlot_val,
      ← BitVec.toNat_inj, handleEra_toNat, ← and_assoc, ← and_assoc]
    refine and_congr_left (fun _ => ?_)
    norm_num
    omega
  · have serial := (s.record r).serial.isLt
    have number := r.isLt
    simp only [State.namedTicket, Option.filter_eq_some_iff, ticketNumber_eq_some, Bool.and_eq_true,
      Bool.not_eq_true', beq_iff_eq, ← BitVec.toNat_inj, ticketSerial_toNat]
    rw [and_comm (a := (s.record r).body.isFree = false), ← and_assoc]
    refine and_congr_left (fun _ => ?_)
    omega

end Sys2Proof.Machine
end

section
/-!
The lookup event: arbitration, search, decision, the claims of each answer, and what PROBE reports of it.
-/

namespace Sys2Proof.Machine

/-! ### Arbitration, search and decision (R26, R27, R33 to R43) -/

/-- The state in which a granted LOOKUP is evaluated: the pointer past the port, the LOOKUP taken (R27, R29). -/
abbrev State.asked (s : State) (p : PortNo) : State := popInbound p { s with pointer := p + 1 }

theorem asked_inbound (s : State) (p : PortNo) : ((s.asked p).port p).inbound = (s.port p).inbound.tail := by
  simp only [State.asked, port_popInbound, if_true]
  rfl

/-- What an answer leaves of the inbound queues. -/
theorem inbound_place (p x : PortNo) (b : OutBody) (s : State) :
    ((place p b s).port x).inbound = (s.port x).inbound := by
  rw [port_place]
  split
  · rename_i e; subst e; rfl
  · rfl

/-- The pointer and the inbound queues stand. -/
abbrev QueuesKept (s t : State) : Prop := t.pointer = s.pointer ∧ ∀ p, (t.port p).inbound = (s.port p).inbound

theorem QueuesKept.trans {s t u : State} (f : QueuesKept s t) (g : QueuesKept t u) : QueuesKept s u :=
  ⟨g.1.trans f.1, fun p => (g.2 p).trans (f.2 p)⟩

theorem QueuesKept.of_eq {s t : State} (pointer : t.pointer = s.pointer) (qp : t.qp = s.qp) : QueuesKept s t :=
  ⟨pointer, fun p => by simp only [State.port, qp]⟩

theorem QueuesKept.place {s t : State} (h : QueuesKept s t) (p : PortNo) (b : OutBody) :
    QueuesKept s (place p b t) := h.trans ⟨rfl, fun x => inbound_place p x b t⟩

theorem queues_spendNow (i : SlotNo) (s : State) : QueuesKept s (spendNow i s) :=
  .of_eq (spendNow_frame i s).2.2 (spendNow_frame i s).1

theorem queues_spendDeferred (i : SlotNo) (s : State) : QueuesKept s (spendDeferred i s) := by
  unfold spendDeferred
  split
  · split <;> exact .of_eq rfl rfl
  · exact .of_eq rfl rfl

theorem queues_setTicketField (i : SlotNo) (t : TicketId) (s : State) : QueuesKept s (setTicketField i t s) := by
  unfold setTicketField
  split <;> exact .of_eq rfl rfl

theorem QueuesKept.ite {s t : State} (h : QueuesKept s t) {c : Prop} [Decidable c] {f : State → State}
    (kept : QueuesKept t (f t)) : QueuesKept s (if c then f t else t) := by
  split
  · exact h.trans kept
  · exact h

/-- The claims and the answer of a lookup leave the pointer and the inbound queues. -/
theorem queues_applyVerdict (q : Query) (tag : Byte) (i : SlotNo) (l : LiveEntry) (v : Verdict) (s : State) :
    QueuesKept s (applyVerdict q tag i l v s) := by
  have counted : QueuesKept s (s.setBody i (.live (l.matched s.ctu.now))) := .of_eq rfl rfl
  unfold applyVerdict
  cases v with
  | drop reason dest =>
    have raised := counted.ite (c := reason = .noTicket) (f := raise .ticketRefused) (.of_eq rfl rfl)
    exact (raised.ite (queues_spendNow i _)).place _ _
  | route dest paced =>
    have shut := counted.ite (c := paced = true) (f := fun t => t.setBody i (.live
      ((l.matched s.ctu.now).shutUntil (s.ctu.now + l.entry.action.paceInterval.setWidth 32)))) (.of_eq rfl rfl)
    exact (shut.ite (queues_spendNow i _)).place _ _
  | create r dest =>
    have created : QueuesKept s (createTicket r ⟨s.handleOf i, q.source, tag, q.ident, l.entry.windowOpen⟩
        (s.setBody i (.live (l.matched s.ctu.now)))) := by
      unfold createTicket
      exact QueuesKept.trans (.of_eq rfl rfl) (queues_setTicketField _ _ _)
    exact (created.ite (queues_spendDeferred i _)).place _ _
  | supersede r dest =>
    dsimp only
    split
    · rename_i h _
      have handed : QueuesKept s (supersedeTicket r h q.source tag q.ident
          (s.setBody i (.live (l.matched s.ctu.now)))) := by
        unfold supersedeTicket
        have noticed := counted.place h.owner (.superseded (s.ticketId r) h.tag)
        exact noticed.trans (QueuesKept.trans (.of_eq rfl rfl) (queues_setTicketField _ _ _))
      exact (handed.ite (queues_spendDeferred i _)).place _ _
    · exact counted

theorem queues_answerLookup (q : Query) (tag : Byte) (s : State) : QueuesKept s (answerLookup q tag s) := by
  have kept : QueuesKept s s := .of_eq rfl rfl
  unfold answerLookup
  split
  · exact kept.place _ _
  · split
    · split
      · exact queues_applyVerdict _ _ _ _ _ s
      · exact kept.place _ _
    · exact kept.place _ _

theorem eligible_iff {s : State} {p : PortNo} : eligible s p = true ↔ (s.port p).state = .opened ∧
    (∃ tag ident kind length rest, (s.port p).inbound = .lookup tag ident kind length :: rest) ∧
    (s.port p).answers < 8 := by
  rw [eligible, Bool.and_eq_true, Port.ready_iff, headLookup_isSome]
  exact ⟨fun ⟨⟨opened, room⟩, head⟩ => ⟨opened, head, room⟩, fun ⟨opened, head, room⟩ => ⟨⟨opened, room⟩, head⟩⟩

/-- Settles O20: `eligible_iff`, the search order, and what an answer leaves of the queues. -/
theorem arbiterGrantsFirstFromPointer : Obligations.ArbiterGrantsFirstFromPointer := by
  intro s
  refine ⟨fun p => eligible_iff, fun p => find_searchOrder _ _, fun p grant => ?_, fun none => ?_⟩
  · obtain ⟨-, ⟨tag, ident, kind, length, rest, head⟩, -⟩ := eligible_iff.1 (granted_eligible grant)
    obtain ⟨pointer, inbound⟩ := queues_answerLookup ⟨p, ident, kind, length⟩ tag (s.asked p)
    exact ⟨_, lookupEvent_eq grant head, pointer, (inbound p).trans (asked_inbound s p)⟩
  · have ungranted : granted s = Option.none := List.find?_eq_none.2 (fun p _ => by simp [none p])
    show execLookupEvent s = _
    simp only [execLookupEvent, ungranted]

/-- Settles O21: the search is the least key of the matching LIVE entries. -/
theorem searchFindsLeastKey : Obligations.SearchFindsLeastKey := by
  intro s q
  refine ⟨fun i l found => ?_, ?_⟩
  · obtain ⟨live, isMatch⟩ := search_live found
    refine ⟨live, (matchesQuery_iff s q l).1 isMatch, fun j m other isMatch' => ?_⟩
    exact leastKey_least found (j, m)
      (List.mem_filter.2 ⟨mem_liveEntries.2 other, (matchesQuery_iff s q m).2 isMatch'⟩)
  · rw [search, leastKey_none, List.filter_eq_nil_iff]
    constructor
    · intro h j m live isMatch
      exact h (j, m) (mem_liveEntries.2 live) ((matchesQuery_iff s q m).2 isMatch)
    · rintro h ⟨j, m⟩ listed isMatch
      exact h j m (mem_liveEntries.1 listed) ((matchesQuery_iff s q m).1 isMatch)

/-- The destinations of a release or a lookup, segment by segment (R39). -/
theorem destinations_has (s : State) (own p : PortNo) (a : Action) :
    SegSet.has (destinations s own a) p = true ↔ SegSet.has a.destinations p = true ∧
      (a.flags.reflect = true ∨ p ≠ own) ∧ (s.port p).state = .opened := by
  have open_p := openPorts_has s p
  unfold destinations SegSet.has
  rw [BitVec.getLsbD_and, Bool.and_eq_true, open_p, ← and_assoc]
  refine and_congr_left (fun _ => ?_)
  split
  · rename_i reflect; simp [reflect]
  · rename_i reflect
    have inside : p.val < 8 := p.isLt
    rw [BitVec.getLsbD_and, BitVec.getLsbD_not, segBit_has]
    simp [reflect, inside, eq_comm (a := own)]

section
variable {s : State} {q : Query} {l : LiveEntry} {dest : SegSet} (interval : l.entry.action.paceInterval ≠ 0#16)
include interval

theorem pacing_drop_opened (mode : l.entry.action.paceMode = .drop) (window : l.window = .opened) :
    pacing s q l dest = .route dest true := by
  rw [pacing, if_neg interval, mode, window]

theorem pacing_drop_shut (mode : l.entry.action.paceMode = .drop) (window : l.window = .shut) :
    pacing s q l dest = .drop .pace dest := by
  rw [pacing, if_neg interval, mode, window]

theorem pacing_defer_owned (mode : l.entry.action.paceMode = .defer) {r : RecNo}
    (owns : ownedPending s l = some r) : pacing s q l dest
      = if hasQuota s q.source then .supersede r dest else .drop .noTicket dest := by
  rw [pacing, if_neg interval, mode, owns]

theorem pacing_defer_opened (mode : l.entry.action.paceMode = .defer) (disowns : ownedPending s l = none)
    (window : l.window = .opened) : pacing s q l dest = .route dest true := by
  rw [pacing, if_neg interval, mode, disowns, window]

theorem pacing_defer_shut (mode : l.entry.action.paceMode = .defer) (disowns : ownedPending s l = none)
    (window : l.window = .shut) : pacing s q l dest
      = if ownsOffered s l then .drop .paceHeld dest else creation s q dest := by
  rw [pacing, if_neg interval, mode, disowns, window]

theorem pacing_defer_creation (mode : l.entry.action.paceMode = .defer) (unowned : l.ticket = none)
    (window : l.window = .shut) : pacing s q l dest = creation s q dest := by
  have disowns : ownedPending s l = none := by simp [ownedPending, unowned]
  have unoffered : ¬ ownsOffered s l = true := by simp [ownsOffered, unowned]
  rw [pacing_defer_shut interval mode disowns window, if_neg unoffered]

end

/-- Settles O22: the branches of `decideEntry` and `pacing`. -/
theorem decisionFollowsRules : Obligations.DecisionFollowsRules := by
  intro s q l a dest admitted forwarded owned paced
  have length : admitted ↔ ¬ (q.length < a.lengthMin ∨ a.lengthMax < q.length) := by
    simp only [admitted, BitVec.lt_def]; omega
  have admits : admitted → decideEntry s q l = match a.disposition with
      | .discard => .drop .rule 0#8
      | .forward => if dest = 0#8 then .drop .noDestination 0#8 else pacing s q l dest := by
    exact fun h => if_neg (length.1 h)
  have forwards : forwarded → decideEntry s q l = pacing s q l dest := by
    rintro ⟨h, forward, some⟩
    rw [admits h, forward]
    exact if_neg some
  refine ⟨fun p => destinations_has s q.source p a, fun h => ?_, fun h discard => ?_, fun h forward none => ?_,
    fun h unpaced => ?_, fun h mode window => ?_, fun h mode window => ?_, fun h mode k ticket pending => ?_,
    fun h mode unowned window => ?_, fun h mode offered window => ?_, fun h mode unowned window => ⟨?_, ?_⟩,
    fun opened => ?_⟩
  · show (if q.length < a.lengthMin ∨ a.lengthMax < q.length then _ else _) = _
    rw [if_pos (Decidable.not_not.1 (fun g => h (length.2 g)))]
  · rw [admits h, discard]
  · rw [admits h, forward]
    exact if_pos none
  · rw [forwards h]
    exact if_pos unpaced
  · rw [forwards h.1, pacing_drop_opened h.2 mode window]
  · rw [forwards h.1, pacing_drop_shut h.2 mode window]
  · have owns : ownedPending s l = some k.number := by simp [ownedPending, ticket, pending]
    rw [forwards h.1, pacing_defer_owned h.2 mode owns]
  · have disowns : ownedPending s l = none := Option.eq_none_iff_forall_ne_some.2 (fun r owns => by
      obtain ⟨k, held, ticket, rfl, pending⟩ := ownedPending_eq_some.1 owns
      exact unowned ⟨k, ticket, by rw [pending]; rfl⟩)
    rw [forwards h.1, pacing_defer_opened h.2 mode disowns window]
  · obtain ⟨k, ticket, body⟩ := offered
    have disowns : ownedPending s l = none := Option.eq_none_iff_forall_ne_some.2 (fun r owns => by
      obtain ⟨k', held, ticket', rfl, pending⟩ := ownedPending_eq_some.1 owns
      obtain rfl := Option.some.inj (ticket.symm.trans ticket')
      rw [pending] at body
      cases body)
    have owns : ownsOffered s l = true := by simp [ownsOffered, ticket, body]
    rw [forwards h.1, pacing_defer_shut h.2 mode disowns window, if_pos owns]
  · intro r rest front
    rw [forwards h.1, pacing_defer_creation h.2 mode unowned window, creation, front]
  · intro empty
    rw [forwards h.1, pacing_defer_creation h.2 mode unowned window, creation, empty]
  · rw [hasQuota, opened]

end Sys2Proof.Machine
end

section
/-!
The answers of the lookup event: what each decision claims of the matched entry, and what PROBE reports of it.
-/

namespace Sys2Proof.Machine

/-! ### Unmatched lookups (R31, R32, R34) -/

@[simp] theorem State.setSlot_setSlot (s : State) (i : SlotNo) (v w : Slot) :
    (s.setSlot i v).setSlot i w = s.setSlot i w := by
  simp [State.setSlot]

@[simp] theorem State.setBody_setBody (s : State) (i : SlotNo) (b c : SlotBody) :
    (s.setBody i b).setBody i c = s.setBody i c := by
  simp [State.setBody]

theorem place_asked (s : State) (p : PortNo) (b : OutBody) : place p b (s.asked p) = s.lookupAnswered p b := by
  rw [place_eq, State.asked, popInbound, State.setPort_setPort, State.port_setPort, if_pos rfl]
  rfl

/-- A search does not read the inbound queues or the pointer. -/
theorem search_asked (s : State) (p : PortNo) (q : Query) : search (s.asked p) q = search s q := rfl

theorem wellFormed_iff (q : Query) :
    q.wellFormed = true ↔ (q.kind = 1#8 ∨ q.kind = 2#8) ∧ q.length.toNat ≤ 2047 := by
  simp only [Query.wellFormed, Bool.and_eq_true, Bool.or_eq_true, beq_iff_eq, decide_eq_true_eq]
  rfl

/-- Settles O23: the branches of `answerLookup` without a matched entry. -/
theorem lookupRefusedOrUnmatched : Obligations.LookupRefusedOrUnmatched := by
  intro s p tag ident kind length rest grant head
  have event := lookupEvent_eq grant head
  have form := wellFormed_iff ⟨p, ident, kind, length⟩
  have answered : ∀ b, answerLookup ⟨p, ident, kind, length⟩ tag (s.asked p) = place p b (s.asked p) →
      exec .lookupEvent s = .next (s.lookupAnswered p b) := fun b answer => by
    show execLookupEvent s = _
    rw [event, answer, place_asked]
  refine ⟨fun bad => answered _ ?_, fun kinds len => ⟨fun standby => answered _ ?_,
    fun running unmatched => answered _ ?_⟩⟩
  · refine if_pos ?_
    rw [Bool.not_eq_true', ← Bool.not_eq_true, form]
    rintro ⟨kinds, len⟩
    rcases bad with ⟨data, poll⟩ | long
    · exact kinds.elim data poll
    · exact absurd len (Nat.not_le.2 long)
  · refine (if_neg (by simp [form.2 ⟨kinds, len⟩])).trans (if_neg ?_)
    show ¬ (s.ctu.device = .active ∨ s.ctu.device = .fallback)
    rw [standby]; simp
  · refine (if_neg (by simp [form.2 ⟨kinds, len⟩])).trans ((if_pos running).trans ?_)
    rw [search_asked, unmatched]

/-! ### The answer on a matched entry (R35, R37 to R49) -/

theorem exec_lookupEvent_evaluated {s : State} {q : Query} {tag : Byte} {i : SlotNo} {l : LiveEntry}
    (h : Evaluated s q tag i l) :
    exec .lookupEvent s = .next (applyVerdict q tag i l (decideEntry s q l) (s.asked q.source)) := by
  obtain ⟨grant, head, form, running, found⟩ := h
  obtain ⟨rest, head⟩ := List.head?_eq_some_iff.1 head
  have answer : answerLookup q tag (s.asked q.source)
      = applyVerdict q tag i l (decideEntry s q l) (s.asked q.source) := by
    refine (if_neg (by simp [form])).trans ((if_pos running).trans ?_)
    rw [search_asked, found]
    exact congrArg (applyVerdict q tag i l · _) (decideEntry_popInbound s q.source _ q l)
  show execLookupEvent s = _
  rw [lookupEvent_eq grant head, ← answer]

/-- Settles O24: the claims of a DROP commute with the placing of its answer. -/
theorem lookupDropKeepsEntry : Obligations.LookupDropKeepsEntry := by
  intro s q tag i l reason dest h decided unspent
  rw [exec_lookupEvent_evaluated h, decided, ← place_asked, ← matched_eq_counted]
  have kept : ¬ (reason = .rule ∧ l.entry.action.flags.single = true) := fun ⟨rule, single⟩ => by
    rw [unspent rule] at single; cases single
  simp only [applyVerdict, if_neg kept]
  by_cases refused : reason = .noTicket
  · rw [if_pos refused, if_pos refused]; rfl
  · rw [if_neg refused, if_neg refused]; rfl

/-- The matched entry as a ROUTE leaves it, before a SINGLE one is spent (R40, R41). -/
def LiveEntry.routed (now : Tick) (isPaced : Bool) (l : LiveEntry) : LiveEntry :=
  if isPaced then (l.counted now).paced now else l.counted now

/-- A ROUTE on a matched entry, with a SINGLE entry spent (R40, R45, R47). -/
theorem applyVerdict_route (q : Query) (tag : Byte) (i : SlotNo) (l : LiveEntry) (dest : SegSet)
    (isPaced : Bool) (s : State) : applyVerdict q tag i l (.route dest isPaced) s = place q.source
      (.route tag l.entry.action.label dest (l.entry.action.rewrite.getD q.ident) (s.rtb.generation.setWidth 8))
      (if l.entry.action.flags.single then spendNow i (s.setBody i (.live (l.routed s.ctu.now isPaced)))
        else s.setBody i (.live (l.routed s.ctu.now isPaced))) := by
  have shut : (if isPaced = true then (s.setBody i (.live (l.matched s.ctu.now))).setBody i (.live
        ((l.matched s.ctu.now).shutUntil (s.ctu.now + l.entry.action.paceInterval.setWidth 32)))
      else s.setBody i (.live (l.matched s.ctu.now)))
      = s.setBody i (.live (l.routed s.ctu.now isPaced)) := by
    rw [matched_eq_counted, State.setBody_setBody]
    cases isPaced <;> rfl
  simp only [applyVerdict, shut]
  rfl

/-- Settles O25: `applyVerdict_route` without a spending. -/
theorem lookupRoutes : Obligations.LookupRoutes := by
  intro s q tag i l dest isPaced h decided unspent
  rw [exec_lookupEvent_evaluated h, decided, applyVerdict_route, if_neg (by simp [unspent]), ← place_asked]
  rfl

theorem slot_setBody_same (s : State) (i : SlotNo) (b : SlotBody) :
    (s.setBody i b).slot i = ⟨(s.slot i).era, b⟩ := by
  rw [State.setBody, State.slot_setSlot, if_pos rfl]

theorem spendNow_unowned (s : State) (i : SlotNo) {l : LiveEntry} (ticket : l.ticket = none) :
    spendNow i (s.setBody i (.live l))
      = raise .singleSpent (s.setSlot i (finishedSlot (s.slot i).era .spent l.entry)) := by
  have body := slot_setBody_same s i (.live l)
  rw [spendNow, retire_none .spent (congrArg Slot.body body) ticket, body, State.setBody, State.setSlot_setSlot]

theorem spendNow_owned (s : State) (i : SlotNo) {l : LiveEntry} {k : TicketId} (ticket : l.ticket = some k) :
    spendNow i (s.setBody i (.live l)) = raise .singleSpent (s.setBody i (.retiring l.entry .spent k)) := by
  have body := slot_setBody_same s i (.live l)
  rw [spendNow, retire_spent (congrArg Slot.body body) ticket, State.setBody_setBody]

theorem routed_entry (now : Tick) (isPaced : Bool) (l : LiveEntry) :
    (l.routed now isPaced).entry.action = l.entry.action ∧ (l.routed now isPaced).ticket = l.ticket := by
  cases isPaced <;> exact ⟨rfl, rfl⟩

/-- The spending of an entry as a lookup left it (R45, R80, R81). -/
theorem spendNow_answered {s : State} {q : Query} (b : OutBody) (i : SlotNo) {l : LiveEntry} :
    let spent (sl : Slot) : State := { (s.lookupAnswered q.source b).setSlot i sl with
      evu := { s.evu with flags := s.evu.flags ||| 16#11 } }
    let spends := place q.source b (spendNow i ((s.asked q.source).setBody i (.live l)))
    (l.ticket = none → spends = spent (if l.entry.action.flags.quiet
      then ⟨(s.slot i).era + 1#6, .free⟩ else ⟨(s.slot i).era, .retired l.entry .spent⟩)) ∧
    (∀ k, l.ticket = some k → spends = spent ⟨(s.slot i).era, .retiring l.entry .spent k⟩) := by
  intro spent spends
  refine ⟨fun ticket => ?_, fun k ticket => ?_⟩
  · have unremoved : ¬ RetireCause.spent = .removed := nofun
    simp only [spends, spent, spendNow_unowned _ i ticket, ← place_asked, finishedSlot, unremoved, false_or]
    rfl
  · simp only [spends, spent, spendNow_owned _ i ticket, ← place_asked]
    rfl

/-- Settles O26: the entry as the lookup left it is retired by its ticket (`spendNow_answered`). -/
theorem lookupSpendsSingle : Obligations.LookupSpendsSingle := by
  intro s q tag i l b e h single decided spent
  have event := exec_lookupEvent_evaluated h
  obtain ⟨m, action, ticket, rfl, answer⟩ : ∃ m : LiveEntry, m.entry.action = l.entry.action ∧
      m.ticket = l.ticket ∧ m.entry = e ∧ exec .lookupEvent s
        = .next (place q.source b (spendNow i ((s.asked q.source).setBody i (.live m)))) := by
    rcases decided with ⟨decided, rfl, rfl⟩ | ⟨dest, isPaced, decided, rfl, rfl⟩
    · refine ⟨l.counted s.ctu.now, rfl, rfl, rfl, ?_⟩
      rw [event, decided, ← matched_eq_counted]
      simp only [applyVerdict, reduceCtorEq, if_false, single, and_self, if_true]
      rfl
    · obtain ⟨action, ticket⟩ := routed_entry s.ctu.now isPaced l
      refine ⟨l.routed s.ctu.now isPaced, action, ticket, rfl, ?_⟩
      rw [event, decided, applyVerdict_route, if_pos single]
      rfl
  obtain ⟨unowned, owned⟩ := spendNow_answered (s := s) (q := q) b i (l := m)
  rw [ticket, action] at unowned
  rw [ticket] at owned
  exact ⟨fun none => by rw [answer, unowned none], fun k own => by rw [answer, owned k own]⟩

/-! ### The answer DEFER (R42, R43, R46, R49, R57, R58) -/

/-- The matched entry after a DEFER: a SINGLE one is held RETIRING with its ticket (R46). -/
def LiveEntry.deferred (m : LiveEntry) (k : TicketId) : SlotBody :=
  if m.entry.action.flags.single then .retiring m.entry .spent k else .live { m with ticket := some k }

/-- A SINGLE entry answered DEFER is spent, any other left (R46). -/
def spendSingle (i : SlotNo) (single : Bool) (u : State) : State := if single then spendDeferred i u else u

theorem spendSingle_eq {u : State} {i : SlotNo} {m : LiveEntry} {k : TicketId}
    (live : (u.slot i).body = .live { m with ticket := some k }) :
    spendSingle i m.entry.action.flags.single u = { u.setBody i (m.deferred k) with
      evu := if m.entry.action.flags.single then { u.evu with flags := u.evu.flags ||| 16#11 } else u.evu } := by
  have same : u.setBody i (.live { m with ticket := some k }) = u := by
    rw [← live]
    exact State.setSlot_slot u i
  unfold spendSingle LiveEntry.deferred
  cases m.entry.action.flags.single
  · exact same.symm
  · simp only [if_true, spendDeferred, live]
    rfl

theorem slot_setBody {u : State} {i : SlotNo} {b : SlotBody} (j : SlotNo) :
    (u.setBody i b).slot j = if j = i then ⟨(u.slot i).era, b⟩ else u.slot j := by
  simp only [State.setBody, State.slot_setSlot, eq_comm (a := j)]

/-- One slot written twice over, as the claims of a lookup do. -/
theorem slot_over_setBody {s u : State} {i : SlotNo} {b v : SlotBody}
    (slot : ∀ j, u.slot j = if i = j then ⟨((s.setBody i b).slot i).era, v⟩ else (s.setBody i b).slot j)
    (j : SlotNo) : u.slot j = if j = i then ⟨(s.slot i).era, v⟩ else s.slot j := by
  rw [slot]
  by_cases e : j = i
  · rw [if_pos e.symm, if_pos e, slot_setBody_same]
  · rw [if_neg (fun h => e h.symm), if_neg e, slot_setBody, if_neg e]

theorem slot_setBody_twice {s u : State} {i : SlotNo} {b v : SlotBody}
    (slot : ∀ j, u.slot j = if i = j then ⟨((s.setBody i b).slot i).era, v⟩ else (s.setBody i b).slot j)
    {c : SlotBody} (j : SlotNo) : (u.setBody i c).slot j = if j = i then ⟨(s.slot i).era, c⟩ else s.slot j := by
  rw [slot_setBody, slot_over_setBody slot, slot_over_setBody slot, if_pos rfl]
  by_cases e : j = i
  · rw [if_pos e, if_pos e]
  · rw [if_neg e, if_neg e, if_neg e]

theorem dueOf_of_records {s t : State} (records : t.rlu.records = s.rlu.records) : t.dueOf = s.dueOf := by
  funext r
  simp only [State.dueOf, State.record, records]

theorem qp_place {s t : State} (qp : t.qp = s.qp) (p : PortNo) (b : OutBody) :
    (place p b t).qp = (place p b s).qp := by
  simp only [place, State.port, State.setPort, qp]

/-- Settles O27: `createTicket` on the counted entry, then the spending of a SINGLE one. -/
theorem lookupDefersByCreation : Obligations.LookupDefersByCreation := by
  intro s q tag i l r dest h decided id due entry
  have event := exec_lookupEvent_evaluated h
  rw [decided] at event
  let held : Held := ⟨s.handleOf i, q.source, tag, q.ident, due⟩
  let asked : State := (s.asked q.source).setBody i (.live entry)
  have live : (asked.slot held.handle.slot).body = .live entry := congrArg Slot.body (slot_setBody_same _ i _)
  have created := createTicket_eq (r := r) (h := held) live
  have owned := (slot_createTicket (r := r) (h := held) live i).trans (if_pos rfl)
  have spent := spendSingle_eq (congrArg Slot.body owned)
  refine ⟨_, event, ?_⟩
  have answer : applyVerdict q tag i l (.create r dest) (s.asked q.source)
      = place q.source (.defer tag id due (s.rtb.generation.setWidth 8))
        (spendSingle i entry.entry.action.flags.single (createTicket r held asked)) := by
    simp only [applyVerdict, matched_eq_counted]
    rfl
  have slots (j : SlotNo) := slot_setBody_twice (s := s.asked q.source) (c := entry.deferred id)
    (slot_createTicket (r := r) (h := held) live) j
  rw [answer, spent]
  refine ⟨fun x => ?_, congrArg (fun u => u.rlu.freeOrder) created, ?_, slots, ?_,
    congrArg State.pointer created, ?_⟩
  · exact (record_createTicket live x).trans (if_congr eq_comm rfl rfl)
  · refine (congrArg (fun u => u.rlu.releaseList) created).trans ?_
    exact congrArg (joinReleaseList s.ctu.now · r s.rlu.releaseList)
      (dueOf_of_records (congrArg (fun u => u.rlu.records) created).symm)
  · rw [← place_asked]
    exact qp_place (congrArg State.qp created) _ _
  · rw [created]
    exact ⟨rfl, ⟨rfl, rfl, rfl⟩, rfl, rfl, rfl⟩

theorem Port.placedAll_append (q : Port) (a b : List OutBody) :
    (q.placedAll a).placedAll b = q.placedAll (a ++ b) := by
  cases a with
  | nil => simp
  | cons c cs => cases b <;> simp [Port.placedAll, flagged]

theorem port_place_placedAll (p x : PortNo) (b : OutBody) (s : State) :
    (place p b s).port x = (s.port x).placedAll (if x = p then [b] else []) := by
  rw [place_eq, State.port_setPort]
  by_cases e : p = x
  · subst e; rw [if_pos rfl, if_pos rfl]
  · rw [if_neg e, if_neg (fun h => e h.symm), Port.placedAll_nil]

theorem port_asked (s : State) (p x : PortNo) : (s.asked p).port x
    = { s.port x with inbound := if x = p then (s.port x).inbound.tail else (s.port x).inbound } := by
  rw [State.asked, port_popInbound]
  by_cases e : p = x
  · subst e; rw [if_pos rfl, if_pos rfl]; rfl
  · rw [if_neg e, if_neg (fun h => e h.symm)]; rfl

/-- Settles O28: `supersedeTicket` on the counted entry, between two placings. -/
theorem lookupDefersBySupersede : Obligations.LookupDefersBySupersede := by
  intro s q tag i l r dest h evaluated decided pending slot unspent id notice answer
  have event := exec_lookupEvent_evaluated evaluated
  rw [decided] at event
  let entry := l.counted s.ctu.now
  let asked : State := (s.asked q.source).setBody i (.live entry)
  have live : (asked.slot h.handle.slot).body = .live entry := by
    rw [slot]; exact congrArg Slot.body (slot_setBody_same _ i _)
  have handed := supersedeTicket_eq (r := r) (h := h) live q.source tag q.ident
  have slots := slot_supersedeTicket (r := r) (h := h) live q.source tag q.ident
  rw [slot] at slots
  have answered : applyVerdict q tag i l (.supersede r dest) (s.asked q.source)
      = place q.source answer (supersedeTicket r h q.source tag q.ident asked) := by
    have pending : ((s.asked q.source).record r).body = .pending h := pending
    simp only [applyVerdict, matched_eq_counted, pending, unspent, Bool.false_eq_true, if_false]
    rfl
  refine ⟨_, event, ?_⟩
  rw [answered]
  refine ⟨fun x => ?_, congrArg (fun u => u.rlu.freeOrder) handed, congrArg (fun u => u.rlu.releaseList) handed,
    fun j => ?_, fun p => ?_, (congrArg State.pointer handed :), (congrArg State.evu handed :), ?_⟩
  · exact (record_supersedeTicket live q.source tag q.ident x).trans (if_congr eq_comm rfl rfl)
  · exact slot_over_setBody (s := s.asked q.source) slots j
  · have qp : (supersedeTicket r h q.source tag q.ident asked).port p
        = (place h.owner notice (s.asked q.source)).port p := by rw [handed]; rfl
    rw [port_place_placedAll, qp, port_place_placedAll, port_asked, Port.placedAll_append]
    rfl
  · rw [handed]
    exact ⟨⟨rfl, rfl, rfl⟩, rfl, rfl, rfl⟩

/-! ### PROBE (R50, R161) -/

/-- The answer a lookup places is the last message of its port's queue. -/
theorem getLast?_place (p : PortNo) (b : OutBody) (s : State) :
    ((place p b s).port p).outbound.getLast? = some ⟨(s.port p).overrun, b⟩ := by
  rw [port_place, if_pos rfl, List.getLast?_concat]

/-- On a matched entry PROBE agrees with the answer the claims end with, verdict by verdict. -/
theorem probeVerdict_agrees (s : State) (q : Query) (tag : Byte) (i : SlotNo) (l : LiveEntry) :
    ∃ b u, applyVerdict q tag i l (decideEntry s q l) (s.asked q.source) = place q.source b u ∧
      ProbeAgrees (probeVerdict s q i l) b := by
  cases verdict : decideEntry s q l with
  | drop reason dest => exact ⟨_, _, rfl, by rw [probeVerdict, verdict]; exact ⟨rfl, rfl, rfl⟩⟩
  | route dest paced => exact ⟨_, _, rfl, by rw [probeVerdict, verdict]; exact ⟨rfl, rfl, rfl, rfl, rfl⟩⟩
  | create r dest => exact ⟨_, _, rfl, by rw [probeVerdict, verdict]; exact ⟨rfl, rfl, rfl, .inr rfl⟩⟩
  | supersede r dest =>
    obtain ⟨k, h, -, -, pending⟩ := ownedPending_eq_some.1 (decideEntry_supersede verdict).2
    have body : ((s.asked q.source).record r).body = .pending h := pending
    simp only [applyVerdict, body]
    refine ⟨_, _, rfl, ?_⟩
    rw [probeVerdict, verdict]
    exact ⟨rfl, rfl, by simp [State.dueOf, pending, TicketBody.held?], .inl rfl⟩

/-- PROBE agrees with the answer of the lookup it stands for (R50). -/
theorem probeResult_agrees {s : State} (running : s.ctu.device = .active ∨ s.ctu.device = .fallback) (q : Query)
    (tag : Byte) : ∃ b u, answerLookup q tag (s.asked q.source) = place q.source b u ∧
      ProbeAgrees (probeResult s q) b := by
  unfold probeResult answerLookup
  split
  · exact ⟨_, _, rfl, rfl, rfl, rfl⟩
  · have active : (s.asked q.source).ctu.device = .active ∨ (s.asked q.source).ctu.device = .fallback := running
    rw [if_pos active, search_asked]
    cases search s q with
    | none => exact ⟨_, _, rfl, rfl, rfl, rfl⟩
    | some found =>
      obtain ⟨b, u, answer, agrees⟩ := probeVerdict_agrees s q tag found.1 found.2
      have decision := decideEntry_popInbound s q.source (q.source + 1) q found.2
      exact ⟨b, u, (congrArg (applyVerdict q tag found.1 found.2 · _) decision).trans answer, agrees⟩

/-- Settles O30: `probeResult_agrees`, on the last message of the queue. -/
theorem probeForetellsLookup : Obligations.ProbeForetellsLookup := by
  intro s t p tag ident kind length rest running grant head event
  obtain ⟨b, u, answer, agrees⟩ := probeResult_agrees running ⟨p, ident, kind, length⟩ tag
  have event : execLookupEvent s = .next t := event
  rw [lookupEvent_eq grant head, answer] at event
  obtain rfl := Host.Outcome.next.inj event
  exact ⟨_, getLast?_place p b u, agrees⟩

/-! ### The release list (R54) -/

/-- Settles O29, by induction on the list. -/
theorem releaseListJoinsByDueTick : Obligations.ReleaseListJoinsByDueTick := by
  intro now due r list sorted
  obtain ⟨front, back, parts, joined, before, after⟩ : ∃ front back, list = front ++ back ∧
      joinReleaseList now due r list = front ++ r :: back ∧
      (∀ x ∈ front, signedAhead now (due x) ≤ signedAhead now (due r)) ∧
      (∀ x ∈ back, signedAhead now (due r) < signedAhead now (due x)) := by
    induction list with
    | nil => exact ⟨[], [], rfl, rfl, nofun, nofun⟩
    | cons x rest ih =>
      obtain ⟨first, sorted⟩ := List.pairwise_cons.1 sorted
      rw [joinReleaseList]
      split
      · rename_i early
        obtain ⟨front, back, rfl, joined, before, after⟩ := ih sorted
        exact ⟨x :: front, back, rfl, by rw [joined]; rfl, List.forall_mem_cons.2 ⟨early, before⟩, after⟩
      · rename_i late
        refine ⟨[], x :: rest, rfl, rfl, nofun, List.forall_mem_cons.2 ⟨lt_of_not_ge late, fun y listed => ?_⟩⟩
        exact lt_of_lt_of_le (lt_of_not_ge late) (first y listed)
  refine ⟨front, back, parts, joined, before, after, ?_⟩
  rw [parts, List.pairwise_append] at sorted
  rw [joined, List.pairwise_append, List.pairwise_cons]
  obtain ⟨inFront, inBack, across⟩ := sorted
  exact ⟨inFront, ⟨fun x listed => (after x listed).le, inBack⟩,
    fun a first => List.forall_mem_cons.2 ⟨before a first, across a first⟩⟩

end Sys2Proof.Machine
end

section
/-!
The wires: command frames on MOSI, frames on a query link, and the SPI transaction with its frame tests.
-/

namespace Sys2Proof.Machine

/-! ### Host frames (R142, R145) -/

theorem decodeMosi_frameBytes (code : Byte) (f : HostFrame) (extra : List Byte) (len : f.params.length ≤ 60) :
    decodeMosi (frameBytes code f ++ extra)
      = ((hostCmdOf code).map (fun c => c.instr f)).getD (.badCommand code f) := by
  obtain ⟨complete, seq, command, length, params, check⟩ := frameBytes_parts code f extra len
  simp only [decodeMosi, if_pos complete, length, command, seq, params, check]
  cases hostCmdOf code <;> rfl

/-- Settles O52: `decodeMosi` reads the parts of a frame where `frameBytes` puts them. -/
theorem hostFramesDecode : Obligations.HostFramesDecode := by
  refine ⟨fun c f extra len => ?_, fun code f extra len unknown => ?_, fun mosi short => ?_⟩
  · rw [decodeMosi_frameBytes _ _ _ len, hostCmdOf_hostCode]; rfl
  · rw [decodeMosi_frameBytes _ _ _ len, unknown]; rfl
  · exact if_neg (by simp [short])

/-! ### Link frames (R123) -/

/-- The event that a delimiter brings after some content: an arrival, where there is content (R123). -/
def arrivalOf (p : PortNo) (content : LinkContent) : List Instr :=
  if content.bytes.isEmpty then [] else [.frameArrival p content]

theorem receiveBytes_delimiter (p : PortNo) (content : LinkContent) (rest : List Byte) :
    receiveBytes p (.frame content false) (Config.delimiter :: rest)
      = ((receiveBytes p (.frame .empty false) rest).1,
          arrivalOf p content ++ (receiveBytes p (.frame .empty false) rest).2) := by
  simp only [receiveBytes, receiveByte, if_true, arrivalOf]

theorem receiveBytes_hunt_delimiter (p : PortNo) (rest : List Byte) :
    receiveBytes p .hunt (Config.delimiter :: rest)
      = ((receiveBytes p (.frame .empty false) rest).1,
          .huntDelimiter p :: (receiveBytes p (.frame .empty false) rest).2) := by
  simp only [receiveBytes, receiveByte, if_true, List.cons_append, List.nil_append]

/-- The content of a frame, escaped, is held to its ninth byte (R123). -/
theorem receiveBytes_content (p : PortNo) (bs : List Byte) :
    receiveBytes p (.frame .empty false) (escapeAll bs)
      = (.frame ⟨bs.take 9, decide (9 < bs.length)⟩ false, []) :=
  receiveBytes_escapeAll p bs .empty (by decide)

/-- Frames after some content, by induction on the frames: each closing delimiter brings the arrival of the
content ahead of it. -/
theorem receiveBytes_lineFrames (p : PortNo) (contents : List (List Byte)) :
    ∀ content : LinkContent, (∀ c ∈ contents, c ≠ []) →
    receiveBytes p (.frame content false) (lineFrames contents) = (.frame .empty false, arrivalOf p content ++
      contents.map (fun c => Instr.frameArrival p ⟨c.take 9, decide (9 < c.length)⟩)) := by
  induction contents with
  | nil =>
    intro content _
    exact receiveBytes_delimiter p content []
  | cons c rest ih =>
    intro content full
    obtain ⟨some, full⟩ := List.forall_mem_cons.1 full
    have arrival : arrivalOf p ⟨c.take 9, decide (9 < c.length)⟩
        = [.frameArrival p ⟨c.take 9, decide (9 < c.length)⟩] := by
      refine if_neg ?_
      simpa using some
    rw [lineFrames, List.cons_append, receiveBytes_delimiter, receiveBytes_append, receiveBytes_content, ih _ full,
      arrival]
    rfl

/-- Settles O53: `receiveBytes_lineFrames`, by induction on the frames. -/
theorem linkFramesArrive : Obligations.LinkFramesArrive := by
  refine ⟨fun p contents full => ⟨?_, ?_⟩, fun contents => ?_, fun content => rfl, fun p n => ?_,
    fun p content => ?_, parseInbound_content⟩
  · have frames := receiveBytes_lineFrames p contents .empty full
    obtain ⟨rest, split⟩ := lineFrames_delimiter contents
    rw [split, receiveBytes_delimiter] at frames
    obtain ⟨last, events⟩ := Prod.mk.inj frames
    rw [split, receiveBytes_hunt_delimiter, last]
    exact congrArg (fun events => (_, Instr.huntDelimiter p :: events)) events
  · exact receiveBytes_lineFrames p contents .empty full
  · induction contents with
    | nil => rfl
    | cons c rest ih =>
      rw [lineFrames, ih, List.flatMap_cons, List.append_assoc]
      rfl
  · induction n with
    | zero => rfl
    | succ n ih =>
      rw [List.replicate_succ]
      exact (receiveBytes_delimiter p _ _).trans (by rw [show LinkContent.empty = ⟨[], false⟩ from rfl, ih]; rfl)
  · rw [List.cons_append]
    refine (receiveBytes_delimiter p _ _).trans ?_
    rw [receiveBytes_append, receiveBytes_content]
    rfl

/-! ### The SPI transaction (R141, R143, R147, R149) -/

theorem spiBytes_bits (mosi : List Byte) {partialByte : List Bool} (short : partialByte.length < 8) :
    spiBytes (mosi.flatMap spiBits ++ partialByte) = mosi := by
  induction mosi with
  | nil => exact spiBytes_partial short
  | cons b rest ih => rw [List.flatMap_cons, List.append_assoc, spiBytes_spiBits, ih]

theorem spiBits_getElem? (b : Byte) {n : Nat} (h : n < 8) : (spiBits b)[n]? = some (b.getLsbD (7 - n)) := by
  interval_cases n <;> rfl

/-- Settles O31: the bytes captured at CS# falling, and the bits of each. -/
theorem spiOpenShiftsStatusAndResponse : Obligations.SpiOpenShiftsStatusAndResponse := by
  refine ⟨fun mosi partialByte short => ?_, fun s idle => ⟨fun k => ?_, fun running => ?_, fun stopped => ?_⟩⟩
  · exact congrArg decodeMosi (spiBytes_bits mosi short)
  · simp only [misoPin, idle]
  · refine ⟨misoBytes s, ?_, fun k => ?_, ?_, ?_, crc8_withCheck _⟩
    · show execSpiTransactionOpen s = _
      simp only [execSpiTransactionOpen, idle, running, Bool.false_eq_true, if_false]
    · exact spiBits_getElem? _ (Nat.mod_lt _ (by decide))
    · rw [misoBytes, withCheck, List.dropLast_concat]
      rfl
    · simp only [misoBytes, Response.bytes, withCheck_length, List.length_append, be16_length, List.length_cons,
        List.length_nil]
      omega
  · show execSpiTransactionOpen s = _
    simp only [execSpiTransactionOpen, idle, stopped, if_true]

/-! ### The status word (R149, R181) -/

theorem freeCount_le (s : State) : freeCount s ≤ 512 := by
  have := s.rtb.count_states
  unfold freeCount
  omega

theorem holds_iff (e : EventUnit) (level : EventLevel) :
    e.holds level = true ↔ ∃ k : Fin 11, e.flags.getLsbD k.val = true ∧ e.levels[k.val] = level := by
  simp [EventUnit.holds]

/-- Every field of the status word fits its bits. -/
theorem statusWord_bounds (s : State) : s.ctu.device.code.toNat ≤ 3 ∧ s.edu.txn.code ≤ 2 ∧
    (alertLow s).toNat ≤ 1 ∧ (noteLow s).toNat ≤ 1 ∧ freeCount s ≤ 512 :=
  ⟨by cases s.ctu.device <;> decide, by cases s.edu.txn <;> decide, Bool.toNat_le _, Bool.toNat_le _,
    freeCount_le s⟩

/-- The fields of the status word do not overlap. -/
theorem statusWord_toNat (s : State) : (statusWord s).toNat = s.ctu.device.code.toNat * 16384
    + s.edu.txn.code * 4096 + (alertLow s).toNat * 2048 + (noteLow s).toNat * 1024 + freeCount s := by
  obtain ⟨device, txn, alert, note, free⟩ := statusWord_bounds s
  rw [statusWord, BitVec.toNat_ofNat, Nat.mod_eq_of_lt (by omega)]

theorem getLsbD_of_div {w : Half} {n : Nat} {b : Bool} (h : w.toNat / 2 ^ n % 2 = b.toNat) :
    w.getLsbD n = b := by
  rw [getLsbD_eq_div, h]
  cases b <;> rfl

/-- Settles O32: the fields of `statusWord_toNat` do not overlap. -/
theorem statusWordFields : Obligations.StatusWordFields := by
  intro s
  have word := statusWord_toNat s
  obtain ⟨device, txn, alert, note, free⟩ := statusWord_bounds s
  exact ⟨by omega, by omega, getLsbD_of_div (by omega), getLsbD_of_div (by omega), by omega, free, holds_iff _ _,
    holds_iff _ _⟩

/-! ### The tests of a frame (R145, R150) -/

theorem exec_instr (c : HostCmd) (f : HostFrame) :
    ∃ run, ∀ s, exec (c.instr f) s = .next (hostCommand c f run s) := by
  cases c <;> exact ⟨_, fun s => rfl⟩

section
variable {code : Byte} {f : HostFrame} {rest : State → State} {s : State}

theorem closeFrame_unseen (unseen : spiUnseen s = true) : closeFrame code f rest s = releaseSpi s :=
  if_pos unseen

variable (seen : spiUnseen s = false)
include seen

theorem closeFrame_tooLong (len : 60 < f.params.length) : closeFrame code f rest s
    = closeSpi f.seq (.bare .frameError) (raise .hostFrameError s) := by
  rw [closeFrame, if_neg (by simp [seen])]
  exact if_pos len

variable (len : f.params.length ≤ 60)
include len

theorem closeFrame_badCheck (bad : frameChecks code f = false) : closeFrame code f rest s
    = closeSpi f.seq (.bare .badCheck) (raise .hostFrameError s) := by
  have fits : ¬ Config.maxParams < f.params.length := Nat.not_lt.2 len
  rw [closeFrame, if_neg (by simp [seen]), if_neg fits, if_pos (by simp [bad])]

variable (good : frameChecks code f = true)
include good

theorem closeFrame_notReady (init : s.ctu.device = .init) (other : code ≠ hostCode .nop) :
    closeFrame code f rest s = closeSpi f.seq (.bare .notReady) s := by
  have fits : ¬ Config.maxParams < f.params.length := Nat.not_lt.2 len
  rw [closeFrame, if_neg (by simp [seen]), if_neg fits, if_neg (by simp [good]), if_pos ⟨init, other⟩]

theorem closeFrame_passed (ready : s.ctu.device ≠ .init ∨ code = hostCode .nop) :
    closeFrame code f rest s = rest s := by
  have fits : ¬ Config.maxParams < f.params.length := Nat.not_lt.2 len
  rw [closeFrame, if_neg (by simp [seen]), if_neg fits, if_neg (by simp [good]), if_neg]
  rintro ⟨init, other⟩
  exact ready.elim (fun h => h init) other

end

theorem exec_badCommand {code : Byte} (unknown : hostCmdOf code = none) (f : HostFrame) (s : State) :
    exec (.badCommand code f) s = .next (closeFrame code f (closeSpi f.seq (.bare .badCommand)) s) := by
  show execBadCommand code f s = _
  rw [execBadCommand, unknown]

theorem exec_frameError (mosi : List Byte) (s : State) : exec (.frameError mosi) s =
    if spiUnseen s then .next (releaseSpi s) else if frameComplete mosi then .next s
    else .next (closeSpi (byteAt mosi 0) (.bare .frameError) (raise .hostFrameError s)) := rfl

/-- Settles O33, test by test of `closeFrame`. -/
theorem hostFrameTestsInOrder : Obligations.HostFrameTestsInOrder := by
  intro s broken unseen
  refine ⟨fun mosi seen short => ?_, fun c f seen => ?_, fun code f seen unknown len => ?_,
    fun lost c f code mosi => ⟨?_, ?_, fun unknown => ?_⟩⟩
  · rw [exec_frameError, if_neg (by simp [seen]), if_neg (by simp [short])]
    rfl
  · obtain ⟨run, event⟩ := exec_instr c f
    simp only [event, hostCommand]
    refine ⟨fun len => ?_, fun len bad => ?_, fun len good => ⟨fun init other => ?_, fun ready wrong => ?_⟩⟩
    · rw [closeFrame_tooLong seen len]; rfl
    · rw [closeFrame_badCheck seen len bad]; rfl
    · rw [closeFrame_notReady seen len good init (fun h => other (hostCode_injective _ _ h))]; rfl
    · rw [closeFrame_passed seen len good (ready.imp id (congrArg hostCode)), if_pos wrong]; rfl
  · have other : code ≠ hostCode .nop := by
      rintro rfl
      rw [hostCmdOf_hostCode] at unknown
      cases unknown
    simp only [exec_badCommand unknown]
    refine ⟨fun bad => ?_, fun good init => ?_, fun good ready => ?_⟩
    · rw [closeFrame_badCheck seen len bad]; rfl
    · rw [closeFrame_notReady seen len good init other]; rfl
    · rw [closeFrame_passed seen len good (.inl ready)]; rfl
  · obtain ⟨run, event⟩ := exec_instr c f
    rw [event, hostCommand, closeFrame_unseen lost]; rfl
  · rw [exec_frameError, if_pos lost]; rfl
  · rw [exec_badCommand unknown, closeFrame_unseen lost]; rfl

end Sys2Proof.Machine
end

section
/-!
The commands of the control unit, the event unit, the transaction and the ports.
-/

namespace Sys2Proof.Machine

/-! ### Control (R75, R165 to R175) -/

/-- Settles O40: each command by its branches. -/
theorem controlCommands : Obligations.ControlCommands := by
  intro s f c started moved value
  refine ⟨fun taken => ?_, fun taken => ?_, fun taken => ?_, fun taken => ?_, fun taken => ?_, fun taken => ?_⟩
  · show execStart f s = _
    rw [execStart, hostCommand_taken taken, runStart]
    split <;> rfl
  · show execResume f s = _
    rw [execResume, hostCommand_taken taken, runResume]
    split <;> rfl
  · show execKeepalive f s = _
    rw [execKeepalive, hostCommand_taken taken, runKeepalive]
    split <;> rfl
  · show execSetTimebase f s = _
    rw [execSetTimebase, hostCommand_taken taken, runSetTimebase, ite_not]
    split
    · split <;> rfl
    · rfl
  · show execSetSupervision f s = _
    rw [execSetSupervision, hostCommand_taken taken, runSetSupervision]
    split <;> rfl
  · show execSetOfferLimit f s = _
    rw [execSetOfferLimit, hostCommand_taken taken, runSetOfferLimit]
    split <;> rfl

/-! ### Events (R182, R184) -/

/-- A set of kinds is one below 2048: bits 11 to 15 are 0 (R179). -/
theorem kindSetOk_iff (set : Half) : kindSetOk set = true ↔ set.toNat < 2048 := by
  have small := set.isLt
  rw [kindSetOk, beq_iff_eq]
  constructor
  · intro h
    have bit : ∀ n, (0xF800#16).getLsbD n = true → ¬ set.toNat / 2 ^ n % 2 = 1 := by
      intro n high
      have clear : (set &&& 0xF800#16).getLsbD n = (0#16).getLsbD n := by rw [h]
      rwa [BitVec.getLsbD_and, high, Bool.and_true, BitVec.getLsbD_zero, getLsbD_eq_div,
        decide_eq_false_iff_not] at clear
    have b11 := bit 11 rfl
    have b12 := bit 12 rfl
    have b13 := bit 13 rfl
    have b14 := bit 14 rfl
    have b15 := bit 15 rfl
    norm_num at b11 b12 b13 b14 b15
    omega
  · intro low
    have places : ∀ n : Fin 16, (0xF800#16).getLsbD n.val = true → 11 ≤ n.val := by decide
    refine BitVec.eq_of_getLsbD_eq (fun n hn => ?_)
    rw [BitVec.getLsbD_and, BitVec.getLsbD_zero, Bool.and_eq_false_iff, or_iff_not_imp_right, Bool.not_eq_false]
    intro high
    have least : 2 ^ 11 ≤ 2 ^ n := Nat.pow_le_pow_right (by decide) (places ⟨n, hn⟩ high)
    rw [getLsbD_eq_div, Nat.div_eq_of_lt (Nat.lt_of_lt_of_le low least)]
    decide

theorem levelOfCode_code (level : EventLevel) : EventLevel.ofCode level.code = some level := by
  cases level <;> rfl

theorem levelOfCode_none {b : Byte} (h : 2 < b.toNat) : EventLevel.ofCode b = none := by
  have other : ∀ c : Byte, c.toNat ≤ 2 → b ≠ c := fun c low e => by rw [e] at h; omega
  rw [EventLevel.ofCode, if_neg (other _ (by decide)), if_neg (other _ (by decide)), if_neg (other _ (by decide))]

/-- SET_EVENT_LEVELS of a bad set or level (R182). -/
theorem runSetEventLevels_bad {params : List Byte} {s : State}
    (bad : kindSetOk (halfAt params 0) = false ∨ EventLevel.ofCode (byteAt params 2) = none) :
    runSetEventLevels params s = (s, .bare .badParam) := by
  unfold runSetEventLevels
  split
  · rename_i level set code
    rcases bad with h | h
    · rw [h] at set; cases set
    · rw [h] at code; cases code
  · rfl

/-- Settles O43: a set of kinds is one below 2048 (`kindSetOk_iff`). -/
theorem eventCommands : Obligations.EventCommands := by
  refine ⟨fun s f taken => ⟨fun bad => ?_, fun level few code => ?_⟩,
    fun s f taken => ⟨fun many => ?_, fun few => ?_⟩⟩
  · have run : runSetEventLevels f.params s = (s, .bare .badParam) :=
      runSetEventLevels_bad (bad.imp (fun many => by rw [← Bool.not_eq_true, kindSetOk_iff]; omega) levelOfCode_none)
    exact next_of_run taken run
  · have run : runSetEventLevels f.params s
        = ({ s with evu := { s.evu with levels := setLevels (halfAt f.params 0) level s.evu.levels } }, .ok) := by
      simp only [runSetEventLevels, (kindSetOk_iff _).2 few, code, levelOfCode_code]
    exact ⟨setLevels (halfAt f.params 0) level s.evu.levels, fun k => by simp [setLevels], next_of_run taken run⟩
  · have run : runClearEvents f.params s = (s, .bare .badParam) :=
      if_neg (by rw [kindSetOk_iff]; omega)
    exact next_of_run taken run
  · have run : runClearEvents f.params s = ({ s with evu := s.evu.cleared (halfAt f.params 0) },
        ⟨.ok, pendingReport s.evu⟩) := if_pos ((kindSetOk_iff _).2 few)
    refine ⟨s.evu.flags &&& ~~~((halfAt f.params 0).setWidth 11), fun k => ?_, next_of_run taken run⟩
    rw [BitVec.getLsbD_and, BitVec.getLsbD_not, BitVec.getLsbD_setWidth]
    by_cases inside : k < 11
    · simp [inside]
    · simp [inside, BitVec.getLsbD_of_ge _ _ (Nat.not_lt.1 inside)]

/-! ### Edit transactions (R95 to R98, R117) -/

/-- A STAGE command, by the transaction state (R97). -/
theorem stage_eq (op : Op) (s : State) : stage op s = match s.edu.txn with
    | .closed => (s, .bare .noTransaction)
    | .building => (s, .bare .busy)
    | .opened => if s.edu.ops.length < 16
        then ({ s with edu := { s.edu with ops := s.edu.ops ++ [op] } }, ⟨.ok, [countByte s.edu.ops.length]⟩)
        else (s, .bare .stageFull) := by
  unfold stage
  cases s.edu.txn <;> rfl

/-- Settles O46, by the transaction state. -/
theorem transactionCommands : Obligations.TransactionCommands := by
  intro s f edited e staged
  have stages : ∀ {c : HostCmd} (op : Op), Taken c f s →
      (.next (hostCommand c f (stage op) s) : Result) = staged op := by
    intro c op taken
    rw [hostCommand_taken taken, stage_eq]
    simp only [staged, e, edited]
    cases s.edu.txn with
    | closed => rfl
    | building => rfl
    | opened =>
      dsimp only
      split <;> rfl
  refine ⟨fun taken => ?_, fun taken => ?_, stages _, stages _, stages _, stages _, fun taken => ?_⟩
  · show execBegin f s = _
    rw [execBegin, hostCommand_taken taken, runBegin]
    simp only [e, edited]
    cases s.edu.txn <;> rfl
  · show execDiscard f s = _
    rw [execDiscard, hostCommand_taken taken, runDiscard]
    simp only [e, edited]
    cases s.edu.txn <;> rfl
  · show execCommitResult f s = _
    rw [execCommitResult, hostCommand_taken taken]
    rfl

/-! ### Ports (R71, R120, R121, R135 to R137) -/

theorem txByte_closed {s : State} {p : PortNo} (closed : (s.port p).state = .closed) (k : Nat) :
    txByte s p k = 0xB5#8 := txByte_idle (toSend_closed closed) k

theorem recordsOwned_eq (s : State) (p : PortNo) : recordsOwned s p
    = (List.finRange 96).filter (fun r => (s.record r).body.held?.any (fun h => h.owner == p)) := by
  unfold recordsOwned
  congr 1
  funext r
  simp only [TicketBody.ownedBy]
  cases (s.record r).body.held? <;> rfl

theorem flushedLine_bytes {q : Port} (sending : q.outbound ≠ []) : q.flushedLine.bytes = [0xB4#8, 0xB5#8] := by
  rw [Port.flushedLine, if_neg (by simpa using sending)]
  rfl

theorem runPortOpen_badParam {params : List Byte} (s : State)
    (bad : 7 < (byteAt params 0).toNat ∨ 96 < (byteAt params 1).toNat) :
    runPortOpen params s = (s, .bare .badParam) := by
  unfold runPortOpen
  split
  · rfl
  · rename_i p number
    refine if_pos (bad.resolve_left (fun large => ?_))
    rw [portParam_none large] at number
    cases number

theorem runPortOpen_eq {params : List Byte} {p : PortNo} (s : State) (number : (byteAt params 0).toNat = p.val)
    (quota : (byteAt params 1).toNat ≤ 96) : runPortOpen params s = if (s.port p).state = .opened
      then (s, .bare .wrongState) else (s.setPort p ⟨.opened, (byteAt params 1).toNat, [],
        [⟨false, .portUp s.ctu.device s.rtb.generation⟩], false, .hunt, (s.port p).line⟩, .ok) := by
  simp only [runPortOpen, portParam_eq number]
  exact if_neg (Nat.not_lt.2 quota)

theorem runPortClose_eq {params : List Byte} {p : PortNo} (s : State) (number : (byteAt params 0).toNat = p.val) :
    runPortClose params s = if (s.port p).state = .closed then (s, .bare .wrongState)
      else (closePort p (completeAll (recordsOwned s p) s), .ok) := by
  simp only [runPortClose, portParam_eq number]

/-- Settles O45: the completion of every ticket owned, then the flush. -/
theorem portCommands : Obligations.PortCommands := by
  refine ⟨fun s f taken => ⟨fun bad => ?_, fun p number quota => ⟨fun opened => ?_, fun closed => ?_⟩⟩,
    fun s f taken => ⟨fun bad => ?_, fun p number => ⟨fun closed => ?_, fun opened => ?_⟩⟩⟩
  · exact next_of_run taken (runPortOpen_badParam s bad)
  · exact next_of_run taken ((runPortOpen_eq s number quota).trans (if_pos opened))
  · exact next_of_run taken ((runPortOpen_eq s number quota).trans (if_neg (by simp [closed])))
  · have run : runPortClose f.params s = (s, .bare .badParam) := by
      simp only [runPortClose, portParam_none bad]
    exact next_of_run taken run
  · exact next_of_run taken ((runPortClose_eq s number).trans (if_pos closed))
  · have run := (runPortClose_eq s number).trans (if_neg (by simp [opened]))
    obtain ⟨completed, ⟨qp, evu, pointer, -, counters, edu, hpt, ctu⟩, unowned⟩ := ticketsOwned_completeAll s p
    have ports : ∀ q, (closePort p (completeAll (recordsOwned s p) s)).port q = if p = q
        then { s.port p with state := .closed, inbound := [], outbound := [], overrun := false,
                             line := (s.port p).flushedLine } else s.port q := fun q => by
      rw [closePort, State.port_setPort]
      simp only [State.port, qp]
    have port := (ports p).trans (if_pos rfl)
    refine ⟨_, next_of_run taken run, ?_, port, fun sending => ?_, txByte_closed (congrArg Port.state port),
      fun q other => (ports q).trans (if_neg (Ne.symm other)), unowned, congrArg (fun h : HostPort =>
        ({ h with phase := .idle, miso := [], response := ⟨f.seq, .ok, []⟩ } : HostPort)) hpt, ctu, evu, counters,
      pointer, edu⟩
    · rw [← recordsOwned_eq]
      exact ⟨completed.records, completed.freeOrder, completed.releaseList, completed.slots⟩
    · exact (congrArg (fun q : Port => q.line.bytes) port).trans (flushedLine_bytes sending)

/-! ### The warm restart (R25, R73, R118, R140, R169) -/

/-- A slot at warm restart, state by state (R25, R73, R92). -/
theorem restarted_cases (now : Tick) (sl : Slot) :
    (∀ l, sl.body = .live l → sl.restarted now = ⟨sl.era, .live { l with
      entry := { l.entry with windowOpen := now }, window := .opened, ticket := none }⟩) ∧
    (∀ e c k, sl.body = .retiring e c k → sl.restarted now = sl.ticketDone) ∧
    (sl.body.isFree = true ∨ sl.body.isRetired = true → sl.restarted now = sl) := by
  obtain ⟨era, body⟩ := sl
  refine ⟨fun l h => ?_, fun e c k h => ?_, fun h => ?_⟩
  · cases h; rfl
  · cases h; rfl
  · cases body with
    | free => rfl
    | retired e c => rfl
    | live l => simp [SlotBody.isFree, SlotBody.isRetired] at h
    | retiring e c k => simp [SlotBody.isFree, SlotBody.isRetired] at h

theorem port_warmRestart (s : State) (p : PortNo) :
    (warmRestart s).port p = (s.port p).restarted s.rtb.generation := by
  simp [warmRestart, State.port]

/-- A link with one message to send carries its frame, and delimiters after it (R123, R133). -/
theorem txByte_single {s : State} {p : PortNo} {m : OutMsg} (sends : toSend s p = [m]) (k : Nat) :
    txByte s p k = (lineFrame m.content).getD k 0xB5#8 := by
  rw [txByte, sends]
  rfl

/-- A port at warm restart, by its state (R136, R140). -/
theorem restarted_port {generation : BitVec 16} {q : Port} :
    (q.state = .closed → q.restarted generation = q) ∧
    (q.state = .opened → q.restarted generation = ⟨.opened, q.quota, [], [⟨false, .portUp .standby generation⟩],
      false, .hunt, q.flushedLine⟩) := by
  obtain ⟨state, quota, inbound, outbound, overrun, receiver, line⟩ := q
  exact ⟨fun h => by cases h; rfl, fun h => by cases h; rfl⟩

/-- Settles O42: slot by slot, record by record and port by port of `warmRestart`. -/
theorem warmRestartKeepsTable : Obligations.WarmRestartKeepsTable := by
  intro s f taken
  have running : held s = false := (Bool.or_eq_false_iff.1 taken.1).1
  have run : runWarmRestart f.params s = (warmRestart s, .ok) := rfl
  refine ⟨_, next_of_run taken run, rfl, ⟨rfl, rfl, rfl⟩, rfl, fun i => ?_, record_warmRestart s, rfl, rfl, rfl,
    fun p => ⟨fun closed => ?_, fun opened => ?_⟩, rfl, rfl, lines_released rfl _, lines_released rfl _⟩
  · obtain ⟨live, retiring, kept⟩ := restarted_cases s.ctu.now (s.slot i)
    have slot := slot_warmRestart s i
    exact ⟨fun l h => slot.trans (live l h), fun e c k h => slot.trans (retiring e c k h),
      fun h => slot.trans (kept h)⟩
  · have port := (port_warmRestart s p).trans (restarted_port.1 closed)
    exact ⟨port, txByte_closed ((congrArg Port.state port).trans closed)⟩
  · have port := (port_warmRestart s p).trans (restarted_port.2 opened)
    refine ⟨fun sending => ?_, txByte_single ?_, port⟩
    · exact (congrArg (fun q : Port => q.line.bytes) port).trans (flushedLine_bytes sending)
    · have sends := toSend_opened (s := (warmRestart s).answered f.seq .ok []) running
        (by simp [State.answered, warmRestart]) (congrArg Port.state port)
      exact sends.trans (congrArg Port.outbound port)

end Sys2Proof.Machine
end

section
/-!
The inspection commands: the images byte by byte, READ_ENTRY, READ_TICKET, READ_PORT, PROBE, the walk,
LIST_RETIRED and COLLECT.
-/

namespace Sys2Proof.Machine

/-! ### Fields of more than one byte (R188) -/

theorem be32_join (v : Tick) : (v.extractLsb' 24 8 ++ v.extractLsb' 16 8 : BitVec 16)
    ++ (v.extractLsb' 8 8 ++ v.extractLsb' 0 8 : BitVec 16) = v := by
  apply BitVec.eq_of_getLsbD_eq
  intro i hi
  simp only [BitVec.getLsbD_append, BitVec.getLsbD_extractLsb']
  by_cases first : i < 8
  · simp [first, show i < 16 by omega]
  · by_cases second : i < 16
    · simp [first, second, show i - 8 < 8 by omega, show 8 + (i - 8) = i by omega]
    · by_cases third : i < 24
      · simp [second, show i - 16 < 8 by omega, show 16 + (i - 16) = i by omega]
      · simp [second, show ¬ i - 16 < 8 by omega, show i - 16 - 8 < 8 by omega,
          show 24 + (i - 16 - 8) = i by omega]

@[simp] theorem halfAt_drop (bs : List Byte) (base n : Nat) : halfAt (bs.drop base) n = halfAt bs (base + n) := by
  simp [halfAt, Nat.add_assoc]

@[simp] theorem identAt_drop (bs : List Byte) (base n : Nat) :
    identAt (bs.drop base) n = identAt bs (base + n) := by
  simp [identAt, Nat.add_assoc]

theorem handleWord_toNat (h : Handle) : h.word.toNat = h.era.toNat * 512 + h.slot.val := by
  have era := h.era.isLt
  have slot := h.slot.isLt
  rw [Handle.word, BitVec.toNat_ofNat, Nat.mod_eq_of_lt (by omega)]

theorem ticketWord_toNat (t : TicketId) : t.word.toNat = t.serial.toNat * 256 + t.number.val := by
  have serial := t.serial.isLt
  have number := t.number.isLt
  rw [TicketId.word, BitVec.toNat_ofNat, Nat.mod_eq_of_lt (by omega)]

/-! ### The images (R189) -/

theorem flagsCode_high (f : EntryFlags) (n : Nat) : f.code.getLsbD (n + 4) = false := by
  obtain ⟨single, essential, reflect, quiet⟩ := f
  by_cases inside : n < 4
  · interval_cases n <;> revert single essential reflect quiet <;> decide
  · exact BitVec.getLsbD_of_ge _ _ (by omega)

theorem flagsCode_low : ∀ single essential reflect quiet : Bool,
    let code := EntryFlags.code ⟨single, essential, reflect, quiet⟩
    code.getLsbD 0 = single ∧ code.getLsbD 1 = essential ∧ code.getLsbD 2 = reflect ∧ code.getLsbD 3 = quiet := by
  decide

theorem rewriteBytes_parts (r : Option Ident) : ∃ b x y z : Byte, rewriteBytes r = [b, x, y, z] ∧
    b = (if r = none then 0#8 else 1#8) ∧ (x ++ y ++ z : BitVec 24) = r.getD 0#24 := by
  cases r with
  | none => exact ⟨_, _, _, _, rfl, rfl, by decide⟩
  | some ident => exact ⟨_, _, _, _, rfl, rfl, be24_join ident⟩

theorem actionAt_image (a : Action) (rest : List Byte) : ActionAt (a.image ++ rest) 0 a := by
  obtain ⟨disposition, destinations, rewrite, label, least, most, interval, mode, kind, value,
    single, essential, reflect, quiet⟩ := a
  obtain ⟨b0, b1, b2, b3⟩ := flagsCode_low single essential reflect quiet
  have high := flagsCode_high ⟨single, essential, reflect, quiet⟩
  obtain ⟨b, x, y, z, bytes, present, ident⟩ := rewriteBytes_parts rewrite
  rw [Action.image, bytes]
  refine ⟨by cases disposition <;> rfl, rfl, ⟨present, ident⟩, be16_join label, be16_join least,
    be16_join most, be16_join interval, by cases mode <;> rfl, by cases kind <;> rfl, be24_join value, ?_⟩
  rintro (_ | _ | _ | _ | n)
  exacts [b0, b1, b2, b3, high n]

theorem ActionAt.of_drop {data : List Byte} {base n : Nat} {a : Action} (h : ActionAt (data.drop base) n a) :
    ActionAt data (base + n) a := by
  obtain ⟨disposition, destinations, rewrite, label, least, most, interval, mode, kind, value, flags⟩ := h
  simp only [byteAt_drop, halfAt_drop, identAt_drop, ← Nat.add_assoc] at *
  exact ⟨disposition, destinations, rewrite, label, least, most, interval, mode, kind, value, flags⟩

theorem DefinitionAt.of_drop {data : List Byte} {base n : Nat} {d : Definition}
    (h : DefinitionAt (data.drop base) n d) : DefinitionAt data (base + n) d := by
  obtain ⟨precedence, value, mask, kind, sources, action, trailing⟩ := h
  have action := action.of_drop
  simp only [byteAt_drop, halfAt_drop, identAt_drop, ← Nat.add_assoc] at *
  exact ⟨precedence, value, mask, kind, sources, action, trailing⟩

/-- The action image inside a definition image, and what follows it (R189). -/
theorem definitionImage_drop (d : Definition) (rest : List Byte) :
    (d.image ++ rest).drop 10 = d.action.image ++ ([0#8, 0#8] ++ rest) ∧
      (d.image ++ rest).drop 30 = [0#8, 0#8] ++ rest := by
  have action : (d.image ++ rest).drop 10 = d.action.image ++ ([0#8, 0#8] ++ rest) := by
    simp [Definition.image, be16, be24]
  refine ⟨action, ?_⟩
  rw [show (30 : Nat) = 10 + 20 from rfl, ← List.drop_drop, action]
  exact List.drop_left' (actionImage_length _)

theorem definitionAt_image (d : Definition) (rest : List Byte) : DefinitionAt (d.image ++ rest) 0 d := by
  obtain ⟨action, trailing⟩ := definitionImage_drop d rest
  have kind : byteAt (d.image ++ rest) 8 = d.kind.code := rfl
  refine ⟨be16_join _, be24_join _, be24_join _, kind.trans (by cases d.kind <;> rfl), rfl, ?_, ?_⟩
  · refine ActionAt.of_drop (base := 10) (n := 0) ?_
    rw [action]
    exact actionAt_image _ _
  · refine (halfAt_drop _ 30 0).symm.trans ?_
    rw [trailing]
    show (0#8 ++ 0#8 : BitVec 16) = 0#16
    decide

theorem runtimeAt_image {s : State} {i : SlotNo} (e : Entry) (rest : List Byte) :
    RuntimeAt (runtimeImage (s.handleOf i) (s.slot i).body e ++ rest) 0 s i e := by
  let data := runtimeImage (s.handleOf i) (s.slot i).body e ++ rest
  have handle : halfAt data 0 = (s.handleOf i).word := be16_join _
  have state : byteAt data 2 = (s.slot i).body.code := rfl
  have cause : byteAt data 3 = (s.slot i).body.causeCode := rfl
  have deadline : tickAt data 14 = (s.slot i).body.deadlineOr0 := be32_join _
  have ticket : halfAt data 18 = (s.slot i).body.ticketWord := be16_join _
  refine ⟨(congrArg BitVec.toNat handle).trans (handleWord_toNat _), state.trans ?_, cause.trans ?_, be16_join _,
    be32_join _, be32_join _, deadline.trans ?_, ?_⟩
  · cases (s.slot i).body <;> rfl
  · cases (s.slot i).body with
    | free => rfl
    | live l => rfl
    | retiring e c k => cases c <;> rfl
    | retired e c => cases c <;> rfl
  · cases (s.slot i).body <;> rfl
  · cases owned : (s.slot i).body.ticket? with
    | none =>
      refine ticket.trans ?_
      rw [SlotBody.ticketWord, owned]
      rfl
    | some k =>
      refine (congrArg BitVec.toNat ticket).trans ?_
      rw [SlotBody.ticketWord, owned]
      exact ticketWord_toNat k

theorem RuntimeAt.of_drop {data : List Byte} {base n : Nat} {s : State} {i : SlotNo} {e : Entry}
    (h : RuntimeAt (data.drop base) n s i e) : RuntimeAt data (base + n) s i e := by
  have ⟨byte, half⟩ : (∀ k, byteAt (data.drop base) (n + k) = byteAt data (base + n + k)) ∧
      ∀ k, halfAt (data.drop base) (n + k) = halfAt data (base + n + k) :=
    ⟨fun k => by rw [byteAt_drop, Nat.add_assoc], fun k => by rw [halfAt_drop, Nat.add_assoc]⟩
  have tick : ∀ k, tickAt (data.drop base) (n + k) = tickAt data (base + n + k) := fun k => by
    simp only [tickAt, halfAt_drop, Nat.add_assoc]
  have handle := h.handle
  have ticket := h.ticket
  rw [half] at ticket
  rw [halfAt_drop] at handle
  exact ⟨handle, (byte 2).symm.trans h.state, (byte 3).symm.trans h.cause, (half 4).symm.trans h.matchCount,
    (tick 6).symm.trans h.serial, (tick 10).symm.trans h.windowOpen, (tick 14).symm.trans h.deadline, ticket⟩

/-- The two images, from a position on (R156, R189). -/
theorem imagesAt {front : List Byte} {n : Nat} (len : front.length = n) (s : State) (i : SlotNo) (e : Entry) :
    let data := front ++ (e.definition.image ++ runtimeImage (s.handleOf i) (s.slot i).body e)
    data.length = n + 52 ∧ DefinitionAt data n e.definition ∧ RuntimeAt data (n + 32) s i e := by
  intro data
  have images : data.drop n = e.definition.image ++ runtimeImage (s.handleOf i) (s.slot i).body e :=
    List.drop_left' len
  have runtime : data.drop (n + 32) = runtimeImage (s.handleOf i) (s.slot i).body e ++ [] := by
    rw [← List.drop_drop, images, List.append_nil]
    exact List.drop_left' (definitionImage_length _)
  refine ⟨?_, ?_, ?_⟩
  · simp only [data, List.length_append, len, definitionImage_length, runtimeImage_length]
  · refine DefinitionAt.of_drop (base := n) (n := 0) ?_
    rw [images]
    exact definitionAt_image _ _
  · refine RuntimeAt.of_drop (base := n + 32) (n := 0) ?_
    rw [runtime]
    exact runtimeAt_image e []

/-! ### READ_ENTRY, READ_TICKET, READ_PORT (R154, R159, R160) -/

/-- READ_ENTRY of a slot with an entry (R154). -/
theorem entryReport_at {s : State} {i : SlotNo} {e : Entry} (entry : (s.slot i).body.entry? = some e) :
    (entryReport s i).length = 54 ∧ byteAt (entryReport s i) 0 = byteAt (entryReport s i) 36 ∧
      byteAt (entryReport s i) 1 = (s.slot i).era.setWidth 8 ∧ DefinitionAt (entryReport s i) 2 e.definition ∧
      RuntimeAt (entryReport s i) 34 s i e := by
  have report : entryReport s i = [(s.slot i).body.code, (s.slot i).era.setWidth 8] ++
      (e.definition.image ++ runtimeImage (s.handleOf i) (s.slot i).body e) := by
    rw [entryReport, entry]
  have ⟨length, definition, runtime⟩ := imagesAt (front := [(s.slot i).body.code, (s.slot i).era.setWidth 8]) rfl
    s i e
  rw [report]
  refine ⟨length, ?_, rfl, definition, runtime⟩
  refine Eq.trans ?_ runtime.state.symm
  show (s.slot i).body.code = _
  cases (s.slot i).body <;> rfl

theorem ticketFlags_bits (a b : Bool) (n : Nat) :
    ((if a then 1#8 else 0#8) ||| (if b then 2#8 else 0#8) : Byte).getLsbD n
      = if n = 0 then a else if n = 1 then b else false := by
  by_cases inside : n < 8
  · interval_cases n <;> revert a b <;> decide
  · rw [BitVec.getLsbD_of_ge _ _ (Nat.not_lt.1 inside), if_neg (by omega), if_neg (by omega)]

/-- The items of a ticket, from its handle on (R159). -/
theorem ticketFields_at (a b c : Byte) (h : Held) (cancelRequested : Bool) (deadline : Option Tick) :
    HeldAt ([a, b, c] ++ ticketFields (.offered h cancelRequested deadline)) h cancelRequested deadline := by
  have owner : (countByte h.owner.val).toNat = h.owner.val := by
    have := h.owner.isLt
    rw [countByte, BitVec.toNat_ofNat, Nat.mod_eq_of_lt (by omega)]
  let data := [a, b, c] ++ ticketFields (.offered h cancelRequested deadline)
  have handle : halfAt data 3 = h.handle.word := be16_join _
  refine ⟨(congrArg BitVec.toNat handle).trans (handleWord_toNat _), owner, rfl, be24_join _, be32_join _, ?_,
    be32_join _⟩
  have bits := ticketFlags_bits cancelRequested deadline.isSome
  rintro (_ | _ | n)
  exacts [bits 0, bits 1, (bits (n + 2)).trans (by simp)]

end Sys2Proof.Machine
end

section
/-!
The inspection commands: READ_ENTRY, READ_TICKET, READ_PORT, PROBE, the walk, LIST_RETIRED and COLLECT.
-/

namespace Sys2Proof.Machine

/-! ### One item (R10, R50, R154, R159 to R161) -/

/-- The items of a PROBE at their places (R161). -/
theorem probeBytes_at (s : State) (r : ProbeResult) : ProbeAt (probeBytes s r) r.answer r.reason r.handle r.label
    r.destinations r.identOut r.ticket r.due :=
  ⟨rfl, rfl, be16_join _, be16_join _, rfl, be24_join _, be16_join _, be32_join _⟩

theorem probeResult_malformed {s : State} {q : Query} (bad : q.wellFormed = false) : probeResult s q
    = ⟨0x24#8, 2#8, 0xFFFF#16, 0#16, 0#8, 0#24, 0xFFFF#16, 0#32⟩ :=
  if_pos (by rw [bad]; rfl)

theorem probeResult_formed {s : State} {q : Query} (formed : q.wellFormed = true) : probeResult s q
    = ((search s q).map (fun x => probeVerdict s q x.1 x.2)).getD
      ⟨0x23#8, 0#8, 0xFFFF#16, 0#16, 0#8, 0#24, 0xFFFF#16, 0#32⟩ := by
  rw [probeResult, if_neg (by simp [formed])]
  cases search s q <;> rfl

/-- STANDBY evaluates as ACTIVE: a search reads the device state for dormancy alone (R50). -/
theorem search_standby {s : State} (standby : s.ctu.device = .standby) (q : Query) :
    search s q = search { s with ctu := { s.ctu with device := .active } } q := by
  have awake : matchesQuery s q = matchesQuery { s with ctu := { s.ctu with device := .active } } q := by
    funext l
    simp only [matchesQuery, dormant, standby]
    rfl
  rw [search, awake]
  rfl

theorem probeResult_standby {s : State} (standby : s.ctu.device = .standby) (q : Query) :
    probeResult s q = probeResult { s with ctu := { s.ctu with device := .active } } q := by
  have verdict : ∀ i l, probeVerdict { s with ctu := { s.ctu with device := .active } } q i l
      = probeVerdict s q i l := fun i l => rfl
  unfold probeResult
  rw [← search_standby standby]
  cases search s q with
  | none => rfl
  | some found => simp only [verdict]

theorem ProbeAt.ownHandle {data : List Byte} {answer reason : Byte} {handle label : Half} {dest : SegSet}
    {out : Ident} {ticket : Half} {due : Tick} (h : ProbeAt data answer reason handle label dest out ticket due) :
    ProbeAt data answer reason (halfAt data 3) label dest out ticket due := { h with handle := rfl }

theorem probeVerdict_handle (s : State) (q : Query) (i : SlotNo) (l : LiveEntry) :
    (probeVerdict s q i l).handle = (s.handleOf i).word := by
  unfold probeVerdict
  cases decideEntry s q l <;> rfl

/-- The decision on a matched entry as PROBE reports it (R50, R161). -/
theorem probeVerdict_at {s : State} {q : Query} {i : SlotNo} {l : LiveEntry} {data : List Byte}
    (bytes : data = probeBytes s (probeVerdict s q i l)) : IsHandle (halfAt data 3) s i ∧
      (∀ reason dest, decideEntry s q l = .drop reason dest →
        ProbeAt data 0x22#8 reason.code (halfAt data 3) l.entry.action.label dest 0#24 0xFFFF#16 0#32) ∧
      (∀ dest paced, decideEntry s q l = .route dest paced →
        ProbeAt data 0x20#8 0#8 (halfAt data 3) l.entry.action.label dest (l.entry.action.rewrite.getD q.ident)
          0xFFFF#16 0#32) ∧
      (∀ r dest, decideEntry s q l = .create r dest →
        ProbeAt data 0x21#8 0#8 (halfAt data 3) l.entry.action.label dest (l.entry.action.rewrite.getD q.ident)
          0xFFFF#16 l.entry.windowOpen) ∧
      (∀ r dest h, decideEntry s q l = .supersede r dest → (s.record r).body = .pending h →
        ProbeAt data 0x21#8 0#8 (halfAt data 3) l.entry.action.label dest (l.entry.action.rewrite.getD q.ident)
          (BitVec.ofNat 16 (((s.record r).serial + 1#4).toNat * 256 + r.val)) h.due) := by
  have items := probeBytes_at s (probeVerdict s q i l)
  rw [← bytes] at items
  refine ⟨?_, fun reason dest decided => ?_, fun dest paced decided => ?_, fun r dest decided => ?_,
    fun r dest h decided pending => ?_⟩
  · rw [items.handle, probeVerdict_handle]
    exact handleWord_toNat _
  · rw [probeVerdict, decided] at items
    exact items.ownHandle
  · rw [probeVerdict, decided] at items
    exact items.ownHandle
  · rw [probeVerdict, decided] at items
    exact items.ownHandle
  · have due : s.dueOf r = h.due := by rw [State.dueOf, pending]; rfl
    rw [probeVerdict, decided] at items
    rw [← due]
    exact items.ownHandle

/-- READ_TICKET of a record (R159). -/
theorem ticketReport_at (s : State) (r : RecNo) : (ticketReport s r).length = 19 ∧
    (halfAt (ticketReport s r) 1).toNat = (s.record r).serial.toNat * 256 + r.val ∧
    ((s.record r).body = .free → ticketReport s r = [0#8] ++ (ticketReport s r).extract 1 3
      ++ [0xFF#8, 0xFF#8, 0xFF#8] ++ List.replicate 13 0#8) ∧
    (∀ h, (s.record r).body = .pending h → byteAt (ticketReport s r) 0 = 1#8 ∧
      HeldAt (ticketReport s r) h false none) ∧
    (∀ h c o, (s.record r).body = .offered h c o → byteAt (ticketReport s r) 0 = 2#8 ∧
      HeldAt (ticketReport s r) h c o) := by
  have id : halfAt (ticketReport s r) 1 = (s.ticketId r).word := be16_join _
  refine ⟨?_, (congrArg BitVec.toNat id).trans (ticketWord_toNat _), fun free => ?_, fun h pending => ?_,
    fun h c o offered => ?_⟩
  · rw [ticketReport]
    cases (s.record r).body <;> rfl
  · rw [ticketReport, free]
    rfl
  · rw [ticketReport, pending]
    exact ⟨rfl, ticketFields_at _ _ _ h false none⟩
  · rw [ticketReport, offered]
    exact ⟨rfl, ticketFields_at _ _ _ h c o⟩

/-- Settles O37: each report read at its places. -/
theorem readsReportOneItem : Obligations.ReadsReportOneItem := by
  refine ⟨fun s f taken => ⟨fun large => ?_, fun i number => ⟨fun free => ?_, fun e entry => ?_⟩⟩,
    fun s f taken => ⟨fun large => ?_, fun r number => ?_⟩,
    fun s f taken => ⟨fun large => ?_, fun p number => ?_⟩,
    fun s f taken => ⟨fun large => ?_, fun p number => ?_⟩, fun s q standby => ⟨search_standby standby q, ?_⟩⟩
  · have run : runReadEntry f.params s = (s, .bare .badParam) := by
      simp only [runReadEntry, slotParam_none large]
    exact next_of_run taken run
  · have run : runReadEntry f.params s = (s, ⟨.ok, [0#8, (s.slot i).era.setWidth 8]⟩) := by
      simp only [runReadEntry, slotParam_eq number, entryReport, free]
      rfl
    exact next_of_run taken run
  · have run : runReadEntry f.params s = (s, ⟨.ok, entryReport s i⟩) := by
      simp only [runReadEntry, slotParam_eq number]
    exact ⟨_, next_of_run taken run, entryReport_at entry⟩
  · have run : runReadTicket f.params s = (s, .bare .badParam) := by
      simp only [runReadTicket, recordParam_none large]
    exact next_of_run taken run
  · have run : runReadTicket f.params s = (s, ⟨.ok, ticketReport s r⟩) := by
      simp only [runReadTicket, recordParam_eq number]
    obtain ⟨length, id, free, pending, offered⟩ := ticketReport_at s r
    refine ⟨_, next_of_run taken run, length, id, ?_⟩
    cases body : (s.record r).body with
    | free => exact free body
    | pending h => exact pending h body
    | offered h c o => exact offered h c o body
  · have run : runReadPort f.params s = (s, .bare .badParam) := by
      simp only [runReadPort, portParam_none large]
    exact next_of_run taken run
  · have run : runReadPort f.params s = (s, ⟨.ok, portReport s p⟩) := by
      simp only [runReadPort, portParam_eq number]
    have state : (s.port p).state.code = if (s.port p).state = .opened then 1#8 else 0#8 := by
      cases (s.port p).state <;> rfl
    rw [portReport, state] at run
    exact next_of_run taken run
  · have run : runProbe f.params s = (s, .bare .badParam) := by
      simp only [runProbe, portParam_none large]
    exact next_of_run taken run
  · let q : Query := ⟨p, identAt f.params 1, byteAt f.params 4, halfAt f.params 5⟩
    have run : runProbe f.params s = (s, ⟨.ok, probeBytes s (probeResult s q)⟩) := by
      simp only [runProbe, portParam_eq number]
      rfl
    have items := probeBytes_at s (probeResult s q)
    have form := wellFormed_iff q
    refine ⟨_, next_of_run taken run, rfl, ?_, be16_join _, fun bad => ?_, fun formed none => ?_,
      fun formed i l found => ?_⟩
    · show s.ctu.device.code = _
      cases s.ctu.device <;> rfl
    · have bad : q.wellFormed = false := by rw [← Bool.not_eq_true, form]; exact bad
      rw [probeResult_malformed bad] at items ⊢
      exact items
    · rw [probeResult_formed (form.2 formed), none] at items ⊢
      exact items
    · refine probeVerdict_at ?_
      rw [probeResult_formed (form.2 formed), found]
      rfl
  · exact probeResult_standby standby q

/-! ### The walk (R155 to R157) -/

theorem walkReport_eq (s : State) (i : SlotNo) (l : LiveEntry) : walkReport s i l = be16 s.rtb.generation ++
    [if s.ctu.device = .fallback ∧ l.entry.action.flags.essential = false then 1#8 else 0#8] ++
    l.entry.definition.image ++ runtimeImage ⟨(s.slot i).era, i⟩ (.live l) l.entry := by
  have asleep : dormant s l.entry = true ↔
      s.ctu.device = .fallback ∧ l.entry.action.flags.essential = false := by
    simp [dormant]
  rw [walkReport, if_congr asleep rfl rfl]
  rfl

/-- The entry next in a walk is the one that the search of the keys finds (R156, R157). -/
theorem leastKey_nextInWalk {s : State} {above : OrderKey → Prop} {test : SlotNo × LiveEntry → Bool}
    (tests : ∀ x, test x = true ↔ above x.2.entry.key) {i : SlotNo} {l : LiveEntry} (next : NextInWalk s above i l) :
    leastKey ((liveEntries s).filter test) = some (i, l) := by
  obtain ⟨live, inside, least⟩ := next
  refine leastKey_eq (List.mem_filter.2 ⟨mem_liveEntries.2 live, (tests _).2 inside⟩) ?_
  rintro ⟨j, m⟩ listed other
  obtain ⟨listed, passed⟩ := List.mem_filter.1 listed
  have live' := mem_liveEntries.1 listed
  refine least j m live' ((tests _).1 passed) ?_
  rintro rfl
  exact other (by rw [SlotBody.live.inj (live.symm.trans live')])

/-- Settles O38: the next entry of the walk is the least key of those above the cursor. -/
theorem walkReturnsNextKey : Obligations.WalkReturnsNextKey := by
  intro s f reply withCursor
  have report : ∀ i l, walkReport s i l = reply i l := walkReport_eq s
  refine ⟨fun i l live => ?_, fun taken => ⟨fun i l next => ?_, fun none => ?_⟩,
    fun taken => ⟨fun absent => ?_, fun k cursor => ⟨fun i l next => ?_, fun last => ?_⟩⟩⟩
  · have ⟨length, definition, runtime⟩ := imagesAt (front := be16 s.rtb.generation ++
      [if s.ctu.device = .fallback ∧ l.entry.action.flags.essential = false then 1#8 else 0#8]) rfl s i l.entry
    rw [live, ← List.append_assoc] at length definition runtime
    exact ⟨length, definition, runtime⟩
  · have all : (liveEntries s).filter (fun _ => true) = liveEntries s := List.filter_true _
    have found := leastKey_nextInWalk (test := fun _ => true) (fun _ => by simp) next
    rw [all] at found
    have run : runWalkFirst f.params s = (setCursor (some l.entry.key) s, ⟨.ok, reply i l⟩) := by
      unfold runWalkFirst
      rw [found, ← report]
    exact next_of_run taken run
  · have empty : liveEntries s = [] := List.eq_nil_iff_forall_not_mem.2 (fun x listed => by
      have := none x.1
      rw [mem_liveEntries.1 listed] at this
      cases this)
    have run : runWalkFirst f.params s = (setCursor Option.none s, .bare .endOfList) := by
      unfold runWalkFirst
      rw [empty]
      rfl
    exact next_of_run taken run
  · have run : runWalkNext f.params s = (s, .bare .wrongState) := by
      rw [runWalkNext, absent]
    exact next_of_run taken run
  · have found := leastKey_nextInWalk (test := fun x => k.before x.2.entry.key) (fun _ => before_iff _ _) next
    have run : runWalkNext f.params s = (setCursor (some l.entry.key) s, ⟨.ok, reply i l⟩) := by
      simp only [runWalkNext, cursor, found, report]
    exact next_of_run taken run
  · have ended : (liveEntries s).filter (fun x => k.before x.2.entry.key) = [] :=
      List.filter_eq_nil_iff.2 (fun x listed later =>
        last x.1 x.2 (mem_liveEntries.1 listed) ((before_iff _ _).1 later))
    have run : runWalkNext f.params s = (s, .bare .endOfList) := by
      simp only [runWalkNext, cursor, ended, leastKey]
    exact next_of_run taken run

/-! ### LIST_RETIRED and COLLECT (R86, R88) -/

/-- The slots that LIST_RETIRED names: the first eight RETIRED ones from the start slot on (R88). -/
theorem retiredFrom_first (s : State) (start : SlotNo) : (retiredFrom s start).length ≤ 8 ∧
    (retiredFrom s start).Pairwise (· < ·) ∧
    (∀ i ∈ retiredFrom s start, start ≤ i ∧ (s.slot i).body.isRetired = true) ∧
    ∀ i, start ≤ i → (s.slot i).body.isRetired = true → i ∈ retiredFrom s start ∨
      (retiredFrom s start).length = 8 ∧ ∀ j ∈ retiredFrom s start, j < i := by
  let all := (List.finRange 512).filter (fun i => decide (start ≤ i) && (s.slot i).body.isRetired)
  have mem : ∀ i, i ∈ all ↔ start ≤ i ∧ (s.slot i).body.isRetired = true := fun i => by
    simp [all]
  have sorted : all.Pairwise (· < ·) := (List.pairwise_lt_finRange 512).filter _
  rw [retiredFrom_eq]
  refine ⟨List.length_take_le _ _, sorted.sublist (List.take_sublist _ _),
    fun i listed => (mem i).1 (List.mem_of_mem_take listed), fun i above retired => ?_⟩
  have listed := (mem i).2 ⟨above, retired⟩
  have sorted' := sorted
  rw [← List.take_append_drop 8 all] at listed sorted'
  rcases List.mem_append.1 listed with first | later
  · exact .inl first
  · refine .inr ⟨?_, fun j first => (List.pairwise_append.1 sorted').2.2 j first i later⟩
    have long : 8 < all.length := by
      by_contra short
      rw [List.drop_eq_nil_of_le (Nat.not_lt.1 short)] at later
      cases later
    exact List.length_take_of_le (Nat.le_of_lt long)

/-- Settles O39: the list is the first eight of the sorted RETIRED slots (`retiredFrom_first`). -/
theorem retiredAreListedAndCollected : Obligations.RetiredAreListedAndCollected := by
  refine ⟨fun s f taken => ⟨fun large => ?_, fun start number => ⟨fun none => ?_, fun ⟨i, above, retired⟩ => ?_⟩⟩,
    fun s i e cause retired => ?_, fun s f taken => ⟨fun i named retired => ⟨?_, ?_⟩, fun other => ?_⟩⟩
  · have run : runListRetired f.params s = (s, .bare .badParam) := by
      simp only [runListRetired, slotParam_none large]
    exact next_of_run taken run
  · obtain ⟨-, -, listed, -⟩ := retiredFrom_first s start
    have empty : retiredFrom s start = [] := List.eq_nil_iff_forall_not_mem.2 (fun i first => by
      obtain ⟨above, retired⟩ := listed i first
      rw [none i above] at retired
      cases retired)
    have run : runListRetired f.params s = (s, .bare .endOfList) := by
      simp only [runListRetired, slotParam_eq number, empty]
    exact next_of_run taken run
  · obtain ⟨length, sorted, listed, complete⟩ := retiredFrom_first s start
    have some : retiredFrom s start ≠ [] := fun empty => by
      have := complete i above retired
      rw [empty] at this
      simp at this
    have run : runListRetired f.params s = (s, ⟨.ok, countByte (retiredFrom s start).length
        :: (retiredFrom s start).flatMap (retiredTriple s)⟩) := by
      simp only [runListRetired, slotParam_eq number]
      cases h : retiredFrom s start with
      | nil => exact absurd h some
      | cons j rest => rfl
    exact ⟨_, some, length, sorted, listed, complete, next_of_run taken run⟩
  · rw [retiredTriple, retired]
    rfl
  · have run : runCollect f.params s = (s.setSlot i ⟨(s.slot i).era + 1#6, .free⟩, .ok) := by
      simp only [runCollect, named]
      exact if_pos retired
    exact next_of_run taken run
  · exact freeCount_setSlot_free s i _ (isFree_of_named named)
  · have run : runCollect f.params s = (s, .bare .notFound) := by
      unfold runCollect
      cases named : s.named (halfAt f.params 0) with
      | none => rfl
      | some i => exact if_neg (by rw [other i named]; simp)
    exact next_of_run taken run

end Sys2Proof.Machine
end

section
/-!
The images of an INSERT and an AMEND: the FIELD test, field by field, and the bytes that an image keeps.
-/

namespace Sys2Proof.Machine

/-! ### The FIELD test (R101, R191) -/

/-- Of tests in rising field number, the first that fails is the least that fails. -/
theorem firstFailing_eq_some {tests : List (Nat × Bool)} (sorted : tests.Pairwise (fun a b => a.1 < b.1)) {n : Nat} :
    firstFailing tests = some n ↔ (n, true) ∈ tests ∧ ∀ k, k < n → (k, true) ∉ tests := by
  constructor
  · intro h
    obtain ⟨before, after, rfl, passed⟩ := firstFailing_some h
    refine ⟨by simp, fun k below failing => ?_⟩
    obtain ⟨-, later, -⟩ := List.pairwise_append.1 sorted
    rcases List.mem_append.1 failing with early | late
    · cases passed _ early
    · rcases List.mem_cons.1 late with same | late
      · cases same
        exact Nat.lt_irrefl _ below
      · exact Nat.lt_asymm below ((List.pairwise_cons.1 later).1 _ late)
  · rintro ⟨failing, least⟩
    cases h : firstFailing tests with
    | none => cases firstFailing_none h _ failing
    | some m =>
      obtain ⟨before, after, rfl, passed⟩ := firstFailing_some h
      obtain ⟨-, later, -⟩ := List.pairwise_append.1 sorted
      rcases List.mem_append.1 failing with early | late
      · cases passed _ early
      · rcases List.mem_cons.1 late with same | late
        · cases same; rfl
        · have above := (List.pairwise_cons.1 later).1 _ late
          exact absurd (by simp) (least m above)

theorem firstFailing_eq_none {tests : List (Nat × Bool)} :
    firstFailing tests = none ↔ ∀ k, (k, true) ∉ tests := by
  rw [firstFailing, Option.map_eq_none_iff, List.find?_eq_none]
  constructor
  · intro h k failing
    exact h _ failing rfl
  · rintro h ⟨k, failed⟩ listed fails
    obtain rfl : failed = true := fails
    exact h k listed

theorem byte_above_one (b : Byte) : 1 < b.toNat ↔ b ≠ 0#8 ∧ b ≠ 1#8 := by
  rw [ne_eq, ne_eq, BitVec.toNat_eq, BitVec.toNat_eq]
  show 1 < b.toNat ↔ ¬ b.toNat = 0 ∧ ¬ b.toNat = 1
  omega

theorem append_eq_zero (a b : Byte) : (a ++ b : BitVec 16) = 0#16 ↔ a = 0#8 ∧ b = 0#8 := by
  constructor
  · intro h
    have bytes := be16_append a b
    rw [h] at bytes
    obtain ⟨first, rest⟩ := List.cons.inj bytes
    obtain ⟨second, -⟩ := List.cons.inj rest
    exact ⟨first.symm.trans (by decide), second.symm.trans (by decide)⟩
  · rintro ⟨rfl, rfl⟩
    decide

/-- The tests of an action image that fail, by field number (R101). -/
theorem mem_actionTests {img : List Byte} {base k : Nat} :
    (k, true) ∈ actionTests (img.drop base) ↔ ActionFieldFails img base k := by
  have high : ∀ b : Byte, b.toNat / 16 ≠ 0 ↔ 16 ≤ b.toNat := fun b => by omega
  simp only [actionTests, List.mem_cons, Prod.mk.injEq, List.not_mem_nil, or_false, byteAt_drop, halfAt_drop,
    identAt_drop, eq_comm (a := true), decide_eq_true_eq, Bool.and_eq_true, Bool.or_eq_true, beq_iff_eq, bne_iff_ne,
    byte_above_one]
  constructor
  · rintro (⟨rfl, h⟩ | ⟨rfl, h⟩ | ⟨rfl, h⟩ | ⟨rfl, h⟩ | ⟨rfl, h⟩ | ⟨rfl, h⟩ | ⟨rfl, h⟩ | ⟨rfl, h⟩ | ⟨rfl, h⟩)
    · exact (byte_above_one _).2 h
    · exact h
    · exact h
    · exact h
    · exact h
    · exact (byte_above_one _).2 h
    · exact h
    · exact h
    · exact (high _).2 h
  · intro h
    unfold ActionFieldFails at h
    split at h
    · exact .inl ⟨rfl, (byte_above_one _).1 h⟩
    · exact .inr (.inl ⟨rfl, h⟩)
    · exact .inr (.inr (.inl ⟨rfl, h⟩))
    · exact .inr (.inr (.inr (.inl ⟨rfl, h⟩)))
    · exact .inr (.inr (.inr (.inr (.inl ⟨rfl, h⟩))))
    · exact .inr (.inr (.inr (.inr (.inr (.inl ⟨rfl, (byte_above_one _).1 h⟩)))))
    · exact .inr (.inr (.inr (.inr (.inr (.inr (.inl ⟨rfl, h⟩))))))
    · exact .inr (.inr (.inr (.inr (.inr (.inr (.inr (.inl ⟨rfl, h⟩)))))))
    · exact .inr (.inr (.inr (.inr (.inr (.inr (.inr (.inr ⟨rfl, (high _).1 h⟩)))))))
    · exact h.elim

/-- The tests of a definition image that fail, by field number (R101). -/
theorem mem_definitionTests {img : List Byte} {k : Nat} :
    (k, true) ∈ definitionTests img ↔ DefinitionFieldFails img k := by
  have trailing : halfAt img 30 ≠ 0#16 ↔ byteAt img 30 ≠ 0#8 ∨ byteAt img 31 ≠ 0#8 := by
    rw [ne_eq, show halfAt img 30 = byteAt img 30 ++ byteAt img 31 from rfl, append_eq_zero, not_and_or]
  simp only [definitionTests, List.mem_append, List.mem_cons, Prod.mk.injEq, List.not_mem_nil, or_false,
    eq_comm (a := true), decide_eq_true_eq, beq_iff_eq, bne_iff_ne, mem_actionTests, trailing]
  constructor
  · rintro (((⟨rfl, h⟩ | ⟨rfl, h⟩ | ⟨rfl, h⟩) | h) | ⟨rfl, h⟩)
    · exact h
    · exact h
    · exact h
    · unfold DefinitionFieldFails
      split
      · exact h.elim
      · exact h.elim
      · exact h.elim
      · exact h.elim
      · exact h
    · exact h
  · intro h
    unfold DefinitionFieldFails at h
    split at h
    · exact .inl (.inl (.inl ⟨rfl, h⟩))
    · exact .inl (.inl (.inr (.inl ⟨rfl, h⟩)))
    · exact .inl (.inl (.inr (.inr ⟨rfl, h⟩)))
    · exact .inr ⟨rfl, h⟩
    · exact .inl (.inr h)

theorem actionTests_sorted (img : List Byte) : (actionTests img).Pairwise (fun a b => a.1 < b.1) :=
  List.pairwise_map.1 (show List.Pairwise (· < ·) [6, 7, 8, 10, 11, 13, 14, 15, 16] by decide)

theorem definitionTests_sorted (img : List Byte) : (definitionTests img).Pairwise (fun a b => a.1 < b.1) :=
  List.pairwise_map.1
    (show List.Pairwise (· < ·) [1, 4, 5, 6, 7, 8, 10, 11, 13, 14, 15, 16, 17] by decide)

theorem definitionFailure_some {img : List Byte} {n : Nat} : definitionFailure img = some n ↔
    DefinitionFieldFails img n ∧ ∀ k, k < n → ¬ DefinitionFieldFails img k := by
  simp only [definitionFailure, firstFailing_eq_some (definitionTests_sorted img), mem_definitionTests]

theorem definitionFailure_none {img : List Byte} :
    definitionFailure img = none ↔ ∀ k, ¬ DefinitionFieldFails img k := by
  simp only [definitionFailure, firstFailing_eq_none, mem_definitionTests]

theorem actionFailure_some {img : List Byte} {n : Nat} : actionFailure img = some n ↔
    ActionFieldFails img 0 n ∧ ∀ k, k < n → ¬ ActionFieldFails img 0 k := by
  have tests : ∀ k, (k, true) ∈ actionTests img ↔ ActionFieldFails img 0 k := fun k => mem_actionTests (base := 0)
  simp only [actionFailure, firstFailing_eq_some (actionTests_sorted img), tests]

theorem actionFailure_none {img : List Byte} :
    actionFailure img = none ↔ ∀ k, ¬ ActionFieldFails img 0 k := by
  have tests : ∀ k, (k, true) ∈ actionTests img ↔ ActionFieldFails img 0 k := fun k => mem_actionTests (base := 0)
  simp only [actionFailure, firstFailing_eq_none, tests]

/-! ### The bytes that an image keeps (R189, R190) -/

theorem map_byteAt {img : List Byte} {n : Nat} (len : img.length = n) :
    (List.range n).map (byteAt img) = img := by
  refine List.ext_getElem (by simp [len]) (fun k _ h => ?_)
  simp [byteAt, h]

theorem be16_halfAt (img : List Byte) (n : Nat) : be16 (halfAt img n) = [byteAt img n, byteAt img (n + 1)] :=
  be16_append _ _

theorem be24_identAt (img : List Byte) (n : Nat) :
    be24 (identAt img n) = [byteAt img n, byteAt img (n + 1), byteAt img (n + 2)] := be24_append _ _ _

/-- The rewrite bytes of an image that passes field 8 (R101). -/
theorem rewriteBytes_image {img : List Byte} {base : Nat} (passed : ¬ ActionFieldFails img base 8) :
    rewriteBytes (if byteAt img (base + 2) = 0#8 then none else some (identAt img (base + 3)))
      = [byteAt img (base + 2), byteAt img (base + 3), byteAt img (base + 4), byteAt img (base + 5)] := by
  have bytes := be24_identAt img (base + 3)
  obtain ⟨code, zero⟩ := not_or.1 passed
  split
  · rename_i absent
    rw [Decidable.not_not.1 (fun some => zero ⟨absent, some⟩)] at bytes
    rw [absent]
    exact congrArg (List.cons 0#8) bytes
  · rename_i present
    have one : byteAt img (base + 2) = 1#8 := Decidable.not_not.1 (fun other => code ⟨present, other⟩)
    rw [one]
    exact congrArg (List.cons 1#8) bytes

/-- The action fields of an image that passes the FIELD test return its bytes. -/
theorem actionImage_kept {img : List Byte} {base : Nat} (passed : ∀ k, ¬ ActionFieldFails img base k) :
    (Action.ofImage (img.drop base)).image = (List.range 20).map (fun n => byteAt img (base + n)) := by
  have disposition := disposition_code _ (passed 6)
  have mode := paceMode_code _ (passed 13)
  have kind := lifetimeKind_code _ (passed 14)
  have flags := entryFlags_code (byteAt img (base + 19)) (fun high => passed 16 (show _ ≠ 0 by omega))
  have rewrite_ := rewriteBytes_image (passed 8)
  simp only [Action.image, Action.ofImage, byteAt_drop, halfAt_drop, identAt_drop, be16_halfAt, be24_identAt, mode,
    kind, flags, rewrite_, Nat.add_zero, disposition]
  rfl

/-- The action fields of a definition image that passes the FIELD test pass it too. -/
theorem actionFieldFails_within {img : List Byte} {k : Nat} (h : ActionFieldFails img 10 k) :
    DefinitionFieldFails img k := by
  rw [← mem_definitionTests, definitionTests]
  exact List.mem_append_left _ (List.mem_append_right _ (mem_actionTests.2 h))

theorem definitionImage_kept {img : List Byte} (passed : ∀ k, ¬ DefinitionFieldFails img k) :
    (Definition.ofImage img).image = (List.range 32).map (byteAt img) := by
  have action := actionImage_kept (fun k h => passed k (actionFieldFails_within h))
  have kind := kindCriterion_code _ (passed 4)
  obtain ⟨zero, zero'⟩ := not_or.1 (passed 17)
  have trailing : [0#8, 0#8] = [byteAt img 30, byteAt img 31] := by
    rw [Decidable.not_not.1 zero, Decidable.not_not.1 zero']
  rw [Definition.image, trailing]
  simp only [Definition.ofImage, be16_halfAt, be24_identAt, kind, action]
  rfl

theorem definitionImage_parts (d : Definition) :
    d.image = d.image.take 10 ++ (d.action.image ++ [0#8, 0#8]) := by
  simp [Definition.image, be16, be24]

/-- Settles O51: every field that passes FIELD has its bytes as its code. -/
theorem imageIsKeptAsGiven : Obligations.ImageIsKeptAsGiven := by
  refine ⟨fun image len passed => ?_, fun d image len passed => ?_⟩
  · rw [definitionImage_kept (definitionFailure_none.1 passed), map_byteAt len]
  · have kept : (Action.ofImage image).image = image := by
      refine (actionImage_kept (base := 0) (actionFailure_none.1 passed)).trans ?_
      simp only [Nat.zero_add]
      exact map_byteAt len
    have last : d.image.drop 30 = [0#8, 0#8] := by
      have := (definitionImage_drop d []).2
      rwa [List.append_nil] at this
    rw [definitionImage_parts, last, kept, ← List.append_assoc]
    rfl

end Sys2Proof.Machine
end

section
/-!
Validation at COMMIT: the running values before an op, the tests of each op, and the first failure of the list.
-/

namespace Sys2Proof.Machine

/-! ### The running values before an op (R100) -/

theorem removed_after {s : State} {run : Running} {op : Op} {i : SlotNo} : i ∈ (run.after s op).removed ↔
    i ∈ run.removed ∨ ∃ w, op = .remove w ∧ s.namedLive w = some i := by
  cases op with
  | remove w =>
    simp only [Running.after]
    cases named : s.namedLive w with
    | none => simp [named]
    | some j => simp [named, or_comm, eq_comm]
  | _ => simp [Running.after]

theorem criteria_after {s : State} {run : Running} {op : Op} {c : Criteria} : c ∈ (run.after s op).criteria ↔
    c ∈ run.criteria ∨ ∃ img, op = .insert img ∧ c = (Definition.ofImage img).criteria := by
  cases op with
  | insert img => simp [Running.after, or_comm]
  | remove w =>
    simp only [Running.after]
    split <;> simp
  | _ => simp [Running.after]

theorem inserts_after {s : State} {run : Running} {op : Op} :
    (run.after s op).inserts = run.inserts + insertCount [op] := by
  cases op with
  | remove w =>
    simp only [Running.after]
    split <;> rfl
  | _ => rfl

/-- The running values after a list of ops. -/
def ranOver (s : State) (done : List Op) : Running := done.foldl (Running.after s) ⟨[], [], 0⟩

theorem ranOver_concat (s : State) (done : List Op) (op : Op) :
    ranOver s (done ++ [op]) = (ranOver s done).after s op := by
  simp [ranOver]

theorem insertCount_append (a b : List Op) : insertCount (a ++ b) = insertCount a + insertCount b :=
  List.countP_append

theorem removed_ranOver {s : State} {i : SlotNo} (done : List Op) :
    i ∈ (ranOver s done).removed ↔ ∃ w, Op.remove w ∈ done ∧ s.namedLive w = some i := by
  induction done using List.reverseRecOn with
  | nil => simp [ranOver]
  | append_singleton done op ih =>
    rw [ranOver_concat, removed_after, ih]
    simp only [List.mem_append, List.mem_singleton, or_and_right, exists_or, eq_comm (a := op)]

theorem criteria_ranOver {s : State} {c : Criteria} (done : List Op) : c ∈ (ranOver s done).criteria ↔
    ∃ img, Op.insert img ∈ done ∧ c = (Definition.ofImage img).criteria := by
  induction done using List.reverseRecOn with
  | nil => simp [ranOver]
  | append_singleton done op ih =>
    rw [ranOver_concat, criteria_after, ih]
    simp only [List.mem_append, List.mem_singleton, or_and_right, exists_or, eq_comm (a := op)]

theorem inserts_ranOver {s : State} (done : List Op) : (ranOver s done).inserts = insertCount done := by
  induction done using List.reverseRecOn with
  | nil => rfl
  | append_singleton done op ih => rw [ranOver_concat, inserts_after, ih, insertCount_append]

/-- The running values before the op at an index. -/
def ranBefore (s : State) (n : Nat) : Running := ranOver s (s.edu.ops.take n)

theorem mem_take_iff_getElem? {ops : List Op} {n : Nat} {op : Op} :
    op ∈ ops.take n ↔ ∃ m, m < n ∧ ops[m]? = some op := by
  rw [List.mem_iff_getElem?]
  refine exists_congr (fun m => ?_)
  rw [List.getElem?_take]
  by_cases h : m < n <;> simp [h]

theorem removed_ranBefore {s : State} {n : Nat} {i : SlotNo} :
    i ∈ (ranBefore s n).removed ↔ RemovedBefore s n i := by
  rw [ranBefore, removed_ranOver]
  simp only [mem_take_iff_getElem?, RemovedBefore]
  constructor
  · rintro ⟨w, ⟨m, earlier, op⟩, named⟩; exact ⟨m, w, earlier, op, named⟩
  · rintro ⟨m, w, earlier, op, named⟩; exact ⟨w, ⟨m, earlier, op⟩, named⟩

theorem criteria_eq_iff (a b : Definition) : a.criteria = b.criteria ↔ SameCriteria a b := by
  simp [Definition.criteria]

theorem isDuplicate_ranBefore {s : State} {n : Nat} {d : Definition} :
    isDuplicate s (ranBefore s n) d.criteria = true ↔ Duplicated s n d := by
  rw [isDuplicate_iff, ranBefore, criteria_ranOver, ← ranBefore]
  simp only [removed_ranBefore, mem_take_iff_getElem?, Duplicated, ← criteria_eq_iff]
  constructor
  · rintro (⟨img, ⟨m, earlier, op⟩, same⟩ | ⟨i, l, live, left, same⟩)
    · exact .inr ⟨m, img, earlier, op, same⟩
    · exact .inl ⟨i, l, live, left, same.symm⟩
  · rintro (⟨i, l, live, left, same⟩ | ⟨m, img, earlier, op, same⟩)
    · exact .inr ⟨i, l, live, left, same.symm⟩
    · exact .inl ⟨img, ⟨m, earlier, op⟩, same⟩

/-! ### The tests of an op (R100 to R105) -/

/-- A failure of the first test of a list that fails, with the field number that goes with it. -/
def FailsAs (tests : List (CommitReason × Prop)) (fields : Nat → Prop) (reason : CommitReason) (field : Nat) : Prop :=
  FirstFailure tests reason ∧ (reason = .field → fields field ∧ ∀ k, k < field → ¬ fields k) ∧
    (reason ≠ .field → field = 0)

section
variable {tests : List (CommitReason × Prop)} {fields : Nat → Prop} {reason r : CommitReason} {fails : Prop}
  {field n : Nat}

theorem failsAs_later (passed : ¬ fails) :
    FailsAs ((reason, fails) :: tests) fields r field ↔ FailsAs tests fields r field := by
  simp [FailsAs, FirstFailure, passed]

theorem failsAs_here (failed : fails) (other : reason ≠ .field) :
    FailsAs ((reason, fails) :: tests) fields r field ↔ some (reason, 0) = some (r, field) := by
  have first : FirstFailure ((reason, fails) :: tests) r ↔ r = reason := by simp [FirstFailure, failed]
  rw [FailsAs, first, Option.some_inj, Prod.mk.injEq]
  constructor
  · rintro ⟨rfl, -, zero⟩; exact ⟨rfl, (zero other).symm⟩
  · rintro ⟨rfl, rfl⟩; exact ⟨rfl, fun h => absurd h other, fun _ => rfl⟩

/-- FIELD is reported with the least field that fails. -/
theorem failsAs_field (failed : fails) (number : fields n) (least : ∀ k, k < n → ¬ fields k) :
    FailsAs ((.field, fails) :: tests) fields r field ↔ some (CommitReason.field, n) = some (r, field) := by
  have first : FirstFailure ((.field, fails) :: tests) r ↔ r = .field := by simp [FirstFailure, failed]
  rw [FailsAs, first, Option.some_inj, Prod.mk.injEq]
  constructor
  · rintro ⟨rfl, reported, -⟩
    obtain ⟨number', least'⟩ := reported rfl
    exact ⟨rfl, Nat.le_antisymm (Nat.not_lt.1 (fun h => least field h number'))
      (Nat.not_lt.1 (fun h => least' n h number))⟩
  · rintro ⟨rfl, rfl⟩; exact ⟨rfl, fun _ => ⟨number, least⟩, fun h => absurd rfl h⟩

theorem failsAs_nil : FailsAs [] fields r field ↔ (none : Option (CommitReason × Nat)) = some (r, field) :=
  iff_of_false (fun h => h.1) nofun

end

/-- The tests of an INSERT (R101 to R105). -/
theorem validateInsert_iff {s : State} {n : Nat} {img : List Byte} {reason : CommitReason} {field : Nat}
    (op : s.edu.ops[n]? = some (.insert img)) : validateInsert s (ranBefore s n) img = some (reason, field) ↔
      FailsAs (opTests s n (.insert img)) (DefinitionFieldFails img) reason field := by
  have inserts : insertCount (s.edu.ops.take (n + 1)) = (ranBefore s n).inserts + 1 := by
    rw [ranBefore, inserts_ranOver, List.take_add_one, op, insertCount_append]
    rfl
  have serial : (s.rtb.exhausted = true ∨ 4294967295 < s.rtb.nextSerial.toNat + ((ranBefore s n).inserts + 1) - 1)
      ↔ (s.rtb.exhausted = true ∨ 2 ^ 32 ≤ s.rtb.nextSerial.toNat + (ranBefore s n).inserts) :=
    or_congr_right (by omega)
  rw [opTests, ← isDuplicate_ranBefore, inserts, serial, validateInsert]
  cases fields : definitionFailure img with
  | some k =>
    obtain ⟨fails, least⟩ := definitionFailure_some.1 fields
    exact (failsAs_field ⟨k, fails⟩ fails least).symm
  | none =>
    rw [failsAs_later (not_exists.2 (definitionFailure_none.1 fields))]
    dsimp only
    split
    · rename_i dup
      exact (failsAs_here dup (by decide)).symm
    · rename_i fresh
      rw [failsAs_later fresh]
      split
      · rename_i full
        exact (failsAs_here full (by decide)).symm
      · rename_i room
        rw [failsAs_later room]
        split
        · rename_i exhausted
          exact (failsAs_here exhausted (by decide)).symm
        · rename_i left
          rw [failsAs_later left, failsAs_nil]

/-- The tests of a target, ahead of others (R104). -/
theorem validateTarget_iff {s : State} {n : Nat} {w : Half} {rest : List (CommitReason × Prop)}
    {fields : Nat → Prop} {reason : CommitReason} {field : Nat} {more : Option (CommitReason × Nat)}
    (others : more = some (reason, field) ↔ FailsAs rest fields reason field) :
    (validateTarget s (ranBefore s n) w).or more = some (reason, field) ↔
      FailsAs (targetTests s n w ++ rest) fields reason field := by
  rw [targetTests, List.cons_append, List.cons_append, List.nil_append, validateTarget]
  cases named : s.namedLive w with
  | none => exact (failsAs_here rfl (by decide)).symm
  | some i =>
    rw [failsAs_later nofun]
    dsimp only
    split
    · rename_i removed
      have before := removed_ranBefore.1 (List.contains_iff_mem.1 removed)
      exact (failsAs_here ⟨i, rfl, before⟩ (by decide)).symm
    · rename_i left
      rw [failsAs_later, ← others, Option.none_or]
      rintro ⟨j, same, before⟩
      cases same
      exact left (List.contains_iff_mem.2 (removed_ranBefore.2 before))

/-- The tests of the op at an index, as validation runs them (R100 to R105). -/
theorem validateOp_iff {s : State} {n : Nat} {op : Op} {reason : CommitReason} {field : Nat}
    (at_n : s.edu.ops[n]? = some op) : validateOp s (ranBefore s n) op = some (reason, field) ↔
      FailsAs (opTests s n op) (OpFieldFails op) reason field := by
  have target : ∀ {w : Half} {fields : Nat → Prop},
      validateTarget s (ranBefore s n) w = some (reason, field) ↔ FailsAs (targetTests s n w) fields reason field := by
    intro w fields
    have alone := validateTarget_iff (s := s) (n := n) (w := w)
      (failsAs_nil (fields := fields) (r := reason) (field := field)).symm
    rwa [Option.or_none, List.append_nil] at alone
  cases op with
  | insert img => exact validateInsert_iff at_n
  | remove w => exact target
  | renew w => exact target
  | amend w img =>
    have fields : (actionFailure img).map (fun k => (CommitReason.field, k)) = some (reason, field) ↔
        FailsAs [(.field, ∃ k, ActionFieldFails img 0 k)] (ActionFieldFails img 0) reason field := by
      cases failure : actionFailure img with
      | none => rw [failsAs_later (not_exists.2 (actionFailure_none.1 failure)), failsAs_nil]; rfl
      | some k =>
        obtain ⟨fails, least⟩ := actionFailure_some.1 failure
        exact (failsAs_field ⟨k, fails⟩ fails least).symm
    have both : validateOp s (ranBefore s n) (.amend w img) = (validateTarget s (ranBefore s n) w).or
        ((actionFailure img).map (fun k => (CommitReason.field, k))) := by
      rw [validateOp]
      cases validateTarget s (ranBefore s n) w <;> rfl
    rw [both]
    exact validateTarget_iff fields

/-! ### The first failure of the list (R99, R100) -/

/-- The failure of the op at an index, if there is an op and it fails. -/
def failureAt (s : State) (n : Nat) : Option (CommitReason × Nat) :=
  (s.edu.ops[n]?).bind (validateOp s (ranBefore s n))

theorem failureAt_iff {s : State} {n : Nat} {reason : CommitReason} {field : Nat} :
    failureAt s n = some (reason, field) ↔ OpRejected s n reason field := by
  rw [failureAt, Option.bind_eq_some_iff]
  refine exists_congr (fun op => and_congr_right (fun at_n => validateOp_iff at_n))

theorem failureAt_none {s : State} {n : Nat} :
    failureAt s n = none ↔ ∀ reason field, ¬ OpRejected s n reason field := by
  simp only [← failureAt_iff, Option.eq_none_iff_forall_ne_some, Prod.forall, ne_eq]

/-- Validation over the rest of the list finds its first failure, by induction on the rest. -/
theorem validateFrom_first {s : State} : ∀ (rest done : List Op), s.edu.ops = done ++ rest →
    (validateFrom s done.length (ranOver s done) rest = none → ∀ n, done.length ≤ n → failureAt s n = none) ∧
    (∀ n reason field, validateFrom s done.length (ranOver s done) rest = some (n, reason, field) →
      failureAt s n = some (reason, field) ∧ ∀ m, done.length ≤ m → m < n → failureAt s m = none) := by
  intro rest
  induction rest with
  | nil =>
    intro done ops
    refine ⟨fun _ n beyond => ?_, fun n reason field h => by cases h⟩
    rw [failureAt, List.getElem?_eq_none (by rw [ops, List.append_nil]; exact beyond)]
    rfl
  | cons op rest ih =>
    intro done ops
    have here : failureAt s done.length = validateOp s (ranOver s done) op := by
      rw [failureAt, ranBefore, ops, List.take_left, List.getElem?_append_right (Nat.le_refl _), Nat.sub_self]
      rfl
    obtain ⟨none_, some_⟩ := ih (done ++ [op]) (by rw [ops, List.append_assoc]; rfl)
    rw [ranOver_concat, List.length_append, List.length_singleton] at none_ some_
    have later : ∀ {n}, done.length ≤ n → n ≠ done.length → done.length + 1 ≤ n := fun h e => by omega
    rw [validateFrom, ← here]
    cases failed : failureAt s done.length with
    | some failure =>
      refine ⟨nofun, fun n reason field h => ?_⟩
      cases h
      exact ⟨failed, fun m least below => absurd below (Nat.not_lt.2 least)⟩
    | none =>
      refine ⟨fun passed n from_ => ?_, fun n reason field h => ?_⟩
      · by_cases e : n = done.length
        · rw [e]; exact failed
        · exact none_ passed n (later from_ e)
      · obtain ⟨at_n, before⟩ := some_ n reason field h
        refine ⟨at_n, fun m from_ below => ?_⟩
        by_cases e : m = done.length
        · rw [e]; exact failed
        · exact before m (later from_ e) below

theorem validate_of_nil {s : State} (empty : s.edu.ops = []) : validate s = some (0, .empty, 0) := by
  rw [validate, empty]

theorem validate_of_ops {s : State} (some : s.edu.ops ≠ []) :
    validate s = validateFrom s 0 (ranOver s []) s.edu.ops := by
  unfold validate
  split
  · rename_i empty; exact absurd empty some
  · rename_i ops; rw [ops]; rfl

theorem OpRejected.ops {s : State} {n : Nat} {reason : CommitReason} {field : Nat}
    (h : OpRejected s n reason field) : s.edu.ops ≠ [] := by
  obtain ⟨op, at_n, -⟩ := h
  intro empty
  rw [empty] at at_n
  cases at_n

/-- An accepted list has ops, none of which fails (R99, R100). -/
theorem validate_none {s : State} :
    validate s = none ↔ s.edu.ops ≠ [] ∧ ∀ n reason field, ¬ OpRejected s n reason field := by
  obtain ⟨passed, failed⟩ := validateFrom_first (s := s) s.edu.ops [] rfl
  constructor
  · intro h
    have some : s.edu.ops ≠ [] := fun empty => by rw [validate_of_nil empty] at h; cases h
    rw [validate_of_ops some] at h
    exact ⟨some, fun n => failureAt_none.1 (passed h n (Nat.zero_le _))⟩
  · rintro ⟨some, none⟩
    rw [validate_of_ops some]
    refine Option.eq_none_iff_forall_ne_some.2 (fun ⟨n, reason, field⟩ h => ?_)
    exact none n reason field (failureAt_iff.1 (failed n reason field h).1)

/-- The failure reported ends the validation. -/
theorem commitRejected_of_validate {s : State} {n : Nat} {reason : CommitReason} {field : Nat}
    (h : validate s = some (n, reason, field)) : CommitRejected s n reason field := by
  by_cases empty : s.edu.ops = []
  · rw [validate_of_nil empty] at h
    cases h
    exact .inl ⟨empty, rfl, rfl, rfl⟩
  · rw [validate_of_ops empty] at h
    obtain ⟨at_n, before⟩ := (validateFrom_first (s := s) s.edu.ops [] rfl).2 n reason field h
    exact .inr ⟨failureAt_iff.1 at_n, fun m r k below => failureAt_none.1 (before m (Nat.zero_le _) below) r k⟩

theorem validate_some {s : State} {n : Nat} {reason : CommitReason} {field : Nat} :
    validate s = some (n, reason, field) ↔ CommitRejected s n reason field := by
  refine ⟨commitRejected_of_validate, ?_⟩
  rintro (⟨empty, rfl, rfl, rfl⟩ | ⟨rejected, least⟩)
  · exact validate_of_nil empty
  · cases h : validate s with
    | none => exact absurd rejected ((validate_none.1 h).2 n reason field)
    | some failure =>
      obtain ⟨m, r, k⟩ := failure
      rcases commitRejected_of_validate h with ⟨empty, -⟩ | ⟨rejected', least'⟩
      · exact absurd empty rejected.ops
      · obtain rfl : m = n := Nat.le_antisymm (Nat.not_lt.1 (fun below => least' n _ _ below rejected))
          (Nat.not_lt.1 (fun below => least m _ _ below rejected'))
        have same := (failureAt_iff.2 rejected').symm.trans (failureAt_iff.2 rejected)
        cases same
        rfl

/-- A target that passes is a LIVE entry outside the removed set (R104). -/
theorem validateTarget_none {s : State} {run : Running} {w : Half} (h : validateTarget s run w = none) :
    ∃ i, s.namedLive w = some i ∧ i ∉ run.removed := by
  unfold validateTarget at h
  split at h
  · cases h
  · rename_i i named
    split at h
    · cases h
    · rename_i left
      exact ⟨i, named, fun removed => left (List.contains_iff_mem.2 removed)⟩

/-- An op that passes: its target is LIVE and not removed, and its image fails no field. -/
theorem validateOp_none {s : State} {run : Running} {op : Op} (h : validateOp s run op = none) :
    (∀ w, op.target = some w → ∃ i, s.namedLive w = some i ∧ i ∉ run.removed) ∧
      ∀ k, ¬ OpFieldFails op k := by
  cases op with
  | insert img => exact ⟨nofun, definitionFailure_none.1 (validateInsert_none h).1⟩
  | remove w => exact ⟨fun _ e => by cases e; exact validateTarget_none h, fun _ => id⟩
  | renew w => exact ⟨fun _ e => by cases e; exact validateTarget_none h, fun _ => id⟩
  | amend w img =>
    rw [validateOp] at h
    split at h
    · cases h
    · rename_i passed
      exact ⟨fun _ e => by cases e; exact validateTarget_none passed,
        actionFailure_none.1 (Option.map_eq_none_iff.1 h)⟩

/-- Settles O48: `validateFrom_first` finds the first op that `OpRejected` describes. -/
theorem acceptedOpsAreSound : Obligations.AcceptedOpsAreSound := by
  refine ⟨fun s => validate_none, fun s n reason field => validate_some, fun s accepted => ?_⟩
  obtain ⟨some_, none_⟩ := validate_none.1 accepted
  have passes : ∀ {n op}, s.edu.ops[n]? = some op → validateOp s (ranBefore s n) op = none := by
    intro n op at_n
    have := failureAt_none.2 (none_ n)
    rwa [failureAt, at_n] at this
  have listed : ∀ {op}, op ∈ s.edu.ops → ∃ n, validateOp s (ranBefore s n) op = none := fun member => by
    obtain ⟨n, at_n⟩ := List.getElem?_of_mem member
    exact ⟨n, passes at_n⟩
  have from_ := validateFrom_of_validate accepted
  have room := room_of_validateFrom from_
  simp only [Nat.zero_add, Nat.add_zero] at room
  refine ⟨some_, ?_, fun inserts => (room inserts).2, stagedDistinct_of_validateFrom from_, fun image member => ?_,
    fun w image member => ?_, fun op member w target => ?_, fun m n w op w' earlier remove at_n target => ?_⟩
  · by_cases inserts : insertCount s.edu.ops = 0
    · rw [inserts]; exact Nat.zero_le _
    · exact (room inserts).1
  · obtain ⟨n, passed⟩ := listed member
    exact (validateOp_none passed).2
  · obtain ⟨n, passed⟩ := listed member
    exact (validateOp_none passed).2
  · obtain ⟨n, passed⟩ := listed member
    obtain ⟨i, named, -⟩ := (validateOp_none passed).1 w target
    rw [named]; rfl
  · obtain ⟨i, named, left⟩ := (validateOp_none (passes at_n)).1 w' target
    intro same
    exact left (removed_ranBefore.2 ⟨m, w, earlier, remove, same.trans named⟩)

/-- Settles O47, by the transaction state and what validation finds. -/
theorem commitAnswersByValidation : Obligations.CommitAnswersByValidation := by
  intro s f taken
  refine ⟨fun closed => ?_, fun building => ?_, fun opened => ⟨fun accepted => ?_, fun n reason field rejected => ?_⟩⟩
  · have run : runCommit f.params s = (s, .bare .noTransaction) := by
      simp only [runCommit, closed]
    exact next_of_run taken run
  · have run : runCommit f.params s = (s, .bare .busy) := by
      simp only [runCommit, building]
    exact next_of_run taken run
  · have passed : validate s = none := Option.eq_none_iff_forall_ne_some.2
      (fun ⟨n, reason, field⟩ h => accepted n reason field (validate_some.1 h))
    have run : runCommit f.params s = ({ s with edu := { s.edu with
        txn := .building, result := ⟨.building, 0, .noReason, 0, s.rtb.generation, []⟩ } }, .bare .accepted) := by
      simp only [runCommit, opened, passed]
    exact next_of_run taken run
  · have run : runCommit f.params s = ({ s with edu := { s.edu with
        result := ⟨.rejected, n, reason, field, s.rtb.generation, []⟩ } },
        ⟨.rejected, [countByte n, reason.code, countByte field]⟩) := by
      simp only [runCommit, opened, validate_some.2 rejected]
    exact next_of_run taken run

end Sys2Proof.Machine
end

section
/-!
The cutover: the check of its targets, and what each op does.
-/

namespace Sys2Proof.Machine

/-! ### The retired-target check (R108, R109) -/

theorem targetGone_iff {s : State} {op : Op} :
    targetGone s op = true ↔ ∃ w, op.target = some w ∧ s.namedLive w = none := by
  unfold targetGone
  cases op.target <;> simp

theorem targetGone_eq_false {s : State} {op : Op} :
    targetGone s op = false ↔ ∀ w, op.target = some w → (s.namedLive w).isSome = true := by
  unfold targetGone
  cases op.target <;> simp [Option.isSome_iff_ne_none]

theorem exec_cutover {s : State} (building : s.edu.txn = .building) : exec .cutover s
    = .next (((s.edu.ops.findIdx? (targetGone s)).map (fun n => cutoverFailed n s)).getD (cutoverDone s)) := by
  show execCutover s = _
  simp only [execCutover, building]
  cases s.edu.ops.findIdx? (targetGone s) <;> rfl

/-- Settles O49: by whether some target is gone. -/
theorem cutoverAppliesOrFails : Obligations.CutoverAppliesOrFails := by
  intro s building
  refine ⟨fun n op w at_n target gone before => ?_, fun live => ?_⟩
  · obtain ⟨inside, here⟩ := List.getElem?_eq_some_iff.1 at_n
    have found : s.edu.ops.findIdx? (targetGone s) = some n :=
      List.findIdx?_eq_some_iff_getElem.2 ⟨inside, by rw [here]; exact targetGone_iff.2 ⟨w, target, gone⟩,
        fun m below => by
          rw [targetGone_eq_false.2 (before m below _ (List.getElem?_eq_getElem _))]
          exact Bool.false_ne_true⟩
    rw [exec_cutover building, found, Option.map_some, Option.getD_some]
    rfl
  · have found : s.edu.ops.findIdx? (targetGone s) = none :=
      List.findIdx?_eq_none_iff.2 (fun op member => targetGone_eq_false.2 (live op member))
    obtain ⟨generation, -, hpt, ctu, evu, pointer, queue⟩ := applyOps_frame s.edu.ops s
    refine ⟨cutoverDone s, (applyOps s.edu.ops s).1, (applyOps s.edu.ops s).2, rfl, ?_, ?_, ctu, hpt, pointer, queue⟩
    · rw [exec_cutover building, found, Option.map_none, Option.getD_none]
    · rw [← generation, ← evu]
      rfl

/-! ### One op (R109 to R113) -/

theorem lowestFree_of_first {s : State} {i : SlotNo} (free : (s.slot i).body = .free)
    (first : ∀ j, j < i → (s.slot j).body.isFree = false) : lowestFree s = some i := by
  rw [lowestFree_eq, ← Fin.find?_eq_find?_finRange, Fin.find?_eq_some_iff]
  exact ⟨by rw [free]; rfl, first⟩

theorem applyOp_insert {s : State} {i : SlotNo} (lowest : lowestFree s = some i) (image : List Byte) :
    applyOp (.insert image) s = ({ s with rtb := { s.rtb with
      slots := s.rtb.slots.set i.val ⟨(s.slot i).era, .live (newEntry s (.ofImage image))⟩
      nextSerial := if s.rtb.nextSerial.toNat = 4294967295 then s.rtb.nextSerial else s.rtb.nextSerial + 1#32
      exhausted := s.rtb.exhausted || s.rtb.nextSerial.toNat == 4294967295 } }, [s.handleOf i]) := by
  show applyInsert image s = _
  unfold applyInsert
  rw [lowest]
  dsimp only
  rw [takeSerial_eq]
  rfl

/-- The entry under an amendment (R112). -/
theorem amended_eq (now : Tick) (a : Action) (l : LiveEntry) : l.amended now a = { l with
    entry := { l.entry with
      definition := { l.entry.definition with action := a }
      windowOpen := if a.paceInterval = l.entry.action.paceInterval then l.entry.windowOpen else now }
    window := if a.paceInterval = l.entry.action.paceInterval then l.window else .opened
    deadline := a.deadlineFrom now } := by
  unfold LiveEntry.amended
  by_cases same : a.paceInterval = l.entry.action.paceInterval
  · simp only [if_pos same]
  · simp only [if_neg same]; rfl

/-- An AMEND of an entry whose slot is as the withdrawal leaves it (R112). -/
theorem applyAmend_eq {s t : State} {i : SlotNo} {m : LiveEntry} (withdrawn : withdrawOf .amended i s = t)
    (live : (t.slot i).body = .live m) (a : Action) :
    applyAmend i a s = t.setBody i (.live (m.amended s.ctu.now a)) := by
  simp only [applyAmend, withdrawn, live]

theorem withdrawOf_none {s : State} {i : SlotNo} {l : LiveEntry} (live : (s.slot i).body = .live l)
    (ticket : l.ticket = none) (reason : WithdrawReason) : withdrawOf reason i s = s := by
  simp [withdrawOf, live, SlotBody.ticket?, ticket]

theorem withdrawOf_offered {s : State} {i : SlotNo} {l : LiveEntry} {k : TicketId} {h : Held} {c : Bool}
    {o : Option Tick} (live : (s.slot i).body = .live l) (ticket : l.ticket = some k)
    (offered : (s.record k.number).body = .offered h c o) (reason : WithdrawReason) : withdrawOf reason i s = s := by
  simp [withdrawOf, live, SlotBody.ticket?, ticket, withdraw, offered]

/-- A withdrawal, and then the slot of the entry written (R67, R70). -/
theorem withdraw_setSlot {s : State} {i : SlotNo} {l : LiveEntry} {k : TicketId} {h : Held} (reason : WithdrawReason)
    (live : (s.slot i).body = .live l) (ticket : l.ticket = some k)
    (pending : (s.record k.number).body = .pending h) (slot : h.handle.slot = i) (v : Slot) :
    let t := (withdraw reason k.number s).setSlot i v
    (∀ r, t.record r = if r = k.number then ⟨(s.record r).serial, .free⟩ else s.record r) ∧
    t.rlu.freeOrder = s.rlu.freeOrder ++ [k.number] ∧
    t.rlu.releaseList = s.rlu.releaseList.filter (fun r => r != k.number) ∧
    (∀ j, t.slot j = if j = i then v else s.slot j) ∧
    (∀ p, t.port p = (s.port p).placedAll (withdrawnFor s reason [k.number] p)) ∧
    t.evu = s.evu ∧ t.pointer = s.pointer ∧ RestKept s t ∧ t.pending = s.pending := by
  intro t
  obtain ⟨withdrew, slots⟩ := withdraw_live reason live ticket pending slot
  obtain ⟨records, freeOrder, releaseList⟩ := withdrew.completed.one
  obtain ⟨evu, pointer, queue, rest⟩ := withdraw_frame reason k.number s
  refine ⟨records, freeOrder, releaseList, fun j => ?_, withdrew.ports, evu, pointer, rest, queue⟩
  rw [State.slot_setSlot, slots]
  by_cases e : j = i
  · rw [if_pos e.symm, if_pos e]
  · rw [if_neg (Ne.symm e), if_neg e, if_neg e]

/-- Settles O50: op by op, and by the ticket of the entry. -/
theorem opsAtCutover : Obligations.OpsAtCutover := by
  refine ⟨fun op rest s => rfl, fun s i image free first => ?_, fun s w i l named live => ?_,
    fun s w i l named live => ?_⟩
  · exact applyOp_insert (lowestFree_of_first free first) image
  · intro amended
    have change : ∀ image, l.amended s.ctu.now (.ofImage image) = amended image := fun image =>
      amended_eq _ _ _
    have removed : ∀ era, finishedSlot era .removed l.entry = ⟨era + 1#6, .free⟩ := fun era => if_pos (.inl rfl)
    refine ⟨fun unowned => ⟨?_, fun image => ?_⟩, fun k h c o ticket offered => ⟨?_, fun image => ?_⟩, ?_⟩
    · rw [applyOp_remove_some named, retire_none .removed live unowned, removed]
    · rw [applyOp_amend_some named, applyAmend_eq (withdrawOf_none live unowned _) live, change]
      rfl
    · rw [applyOp_remove_some named, retire_offered .removed live ticket offered]
    · rw [applyOp_amend_some named, applyAmend_eq (withdrawOf_offered live ticket offered _) live, change]
      rfl
    · intro k h ticket pending slot withdrawn
      refine ⟨⟨_, ?_, withdraw_setSlot .removed live ticket pending slot _⟩, fun image => ⟨_, ?_,
        withdraw_setSlot .amended live ticket pending slot _⟩⟩
      · rw [applyOp_remove_some named, retire_pending (.inl ⟨rfl, rfl⟩) live ticket pending slot, removed]
      · obtain ⟨same, slots⟩ := withdrawOf_pending .amended live ticket pending slot
        have now : (withdraw .amended k.number s).slot i
            = ⟨(s.slot i).era, .live { l with ticket := none }⟩ := by rw [← same, slots, if_pos rfl]
        have unticketed : LiveEntry.amended s.ctu.now (.ofImage image) { l with ticket := none }
            = { amended image with ticket := none } := amended_eq _ _ _
        rw [applyOp_amend_some named, applyAmend_eq same (congrArg Slot.body now), unticketed, State.setBody, now]
  · rw [applyOp_renew_some named]
    simp only [applyRenew, live]
    rfl

end Sys2Proof.Machine
end
